-- ==== Sys2Proof/Word.lean ====
section
/-!
DEFINITION. The bit vectors the manual treats as bits: a byte lane, a memory word, the four byte enables of an access
(00 "Memory words", 09 R161).
-/

namespace Sys2Proof

/-- One byte of image memory, of the serial store or of a line frame. -/
abbrev Byte := BitVec 8

/-- A memory word: 32 bits (00 "Memory words"). -/
abbrev Word := BitVec 32

/-- A byte address on the controller bus and the memory bus: 24 bits (R161). -/
abbrev Addr := BitVec 24

/-- The four byte enables of an access, bit `i` for lane `i` (R161). -/
abbrev Lanes := BitVec 4

end Sys2Proof
end

