-- ==== Sys2Proof/Config.lean ====
section
/-!
DEFINITION. The constants the manual fixes for every part, and the one value it leaves open. The configuration of a
flume is not here: it is data of the machine (`Machine.FlumeConfig`), read from the configuration image.
-/

namespace Sys2Proof.Config

/-- The hold queue holds at most this many entries (R69). -/
def holdDepth : Nat := 8

/-- Boats are numbered 1 to this (00 "Numbering"). -/
def boatCount : Nat := 32

/-- Node positions are numbered 1 to this (R121). -/
def positionCount : Nat := 16

/-- Segment identifiers run below this (R1). -/
def segmentLimit : Nat := 24

/-- The entries of the reservation list image (11.2, R178). -/
def reservationRows : Nat := 24

/-- The UPKEEP wait count at which UPKEEP is granted ahead of PASSAGE (R171). -/
def upkeepPatience : Nat := 16

/-- A wait of 20 ms: the store's acknowledgement (R184, R189) and the stuck-low watch (R128). -/
def twentyMs : Nat := 20

/-- The enumeration answer's time, in ms (R132). -/
def answerMs : Nat := 5

/-- The break's length, in ms (R131). -/
def breakMs : Nat := 1

/-- Rounds begin this far apart, in ms (R122). -/
def roundMs : Nat := 2

/-- Silent rounds that take the line DOWN (R127). -/
def silenceLimit : Nat := 10

/-- Missed slots in a row that make a node LOST (R126). -/
def missLimit : Nat := 3

/-- Withheld rounds of the sustain drill (R139). -/
def withheldRounds : Nat := 10

/-- Check rounds of the sustain drill (R140). -/
def checkRounds : Nat := 3

/-- Bytes of one page of a save (R188). -/
def pageBytes : Nat := 32

/-- The largest configuration image, the size of the staging area (10.4). -/
def imageLimit : Nat := 2304

/-- A weight that stands for a sensor fault or no reading (R87). -/
def noWeight : Nat := 65535

/-- A berth's weight is stale above this age (R87). -/
def staleAge : Nat := 32

/-- The saturated interval clock (R95). -/
def saturated : Nat := 65535

/-- What 16-bit counters saturate at (R14, R150, R169). -/
def saturation16 : Nat := 65535

/-- The first address of the service page's areas (R164, 11.2). -/
def statusBase : Nat := 0xFFF000
def producerAddr : Nat := 0xFFF040
def consumerAddr : Nat := 0xFFF044
def directiveBase : Nat := 0xFFF600
def resultBase : Nat := 0xFFF680
def stagingBase : Nat := 0xFFF700

/-- The address of the last word of image memory (R167). -/
def lastWord : Nat := 0xFFFFFC

/-- What a byte of image memory, or of the serial store, reads as while nothing has written it.
DESIGN CHOICE, unsafe (log entries 5 and 6): the spec gives no power-on contents. -/
def unlistedByte : Byte := 0

/-- FREE VALUE (log entry 12): the copy C that a consumer index write leaves while no ring is in effect. R182 takes the
value modulo N, and in OFFLINE(NO-CONFIG) there is no N. The spec states no result there. -/
opaque consumerIndexWithoutRing : Word → Nat

end Sys2Proof.Config
end

