-- ==== Sys2Proof/Syntax.lean ====
section
/-!
DEFINITION. The commands of the block: one constructor of `Instr` for each row of spec/opcode_table.json. The table
gives no row an operand field, so the operands are the model's: an access, a request's tag and argument words, a
frame's bytes, the boat, word or run-out whose deadline arrives, a pin's level.
-/

namespace Sys2Proof

/-- The four guarded banks (R48). -/
inductive Bank where
  | release | route | fin | speed
  deriving DecidableEq, Repr

/-- A guarded word, named by bank and index (R48). -/
structure WordRef where
  bank  : Bank
  index : Nat
  deriving DecidableEq, Repr

/-- One access on the controller port (R161). `data` holds one word for each beat of a write, and nothing for a read. -/
structure Access where
  addr  : Addr
  write : Bool
  lanes : Lanes
  beats : Nat
  data  : List Word
  deriving DecidableEq, Repr

/-- What the controller gives with a directive: the tag of its trigger word and its argument words (R174, R176). The
argument count is the length of the list. -/
structure Request where
  tag  : BitVec 16
  args : List Word
  deriving DecidableEq, Repr

/-- The commands, in the order of spec/opcode_table.json. -/
inductive Instr where
  /-- RESET is asserted. `beats` says how many beats of a granted controller access memory had completed by then (R173). -/
  | resetAssert (beats : Nat)
  | resetRelease
  | storeImageRead
  | storeReadTimeout
  | endOfLoading
  | controllerAccessArrival (access : Access)
  | controllerRead
  | controllerWrite
  | writeBurst
  | windowAccess
  | releaseWrite
  | routeWrite
  | finWrite
  | speedWrite
  | stayWrite
  | consumerIndexWrite
  | triggerWrite
  | argumentReadComplete
  | startRide (request : Request)
  | stopRide (request : Request)
  | stopNow (request : Request)
  | resetTrip (request : Request)
  /-- DRILL with its argument 0 (R158). -/
  | drillTrip (tag : BitVec 16)
  /-- DRILL with its argument 1 (R159). -/
  | drillSustain (tag : BitVec 16)
  | addBoat (request : Request)
  | withdrawBoat (request : Request)
  | reseat (request : Request)
  | setPace (request : Request)
  | setProfile (request : Request)
  | commitConfig (request : Request)
  | restartLine (request : Request)
  | stagingReadComplete
  | savePageAck
  | savePageTimeout
  | motionWriteGrant
  | motionWriteComplete
  | reportRecordWrite
  | imageItemWrite
  | round
  /-- The one frame that began in the slot's window, byte 0 first (R123, 11.6). -/
  | nodeReport (frame : List Byte)
  /-- The frames that began in the slot's window (R123). -/
  | slotMiss (frames : List (List Byte))
  | roundSilence
  | stuckLow
  | breakEnd
  | enumerationAnswer (frame : List Byte)
  | enumerationTimeout
  | reservationLapse (boat : Nat)
  | dwellExpiry (boat : Nat)
  | holdExpiry (word : WordRef)
  | pacerIntervalElapsed
  | profileStep (boat : Nat)
  | finLagExpiry (runout : Nat)
  | ctrlResetSense (asserted : Bool)
  | lineLevelChange (low : Bool)
  deriving DecidableEq, Repr

end Sys2Proof
end

