-- ==== Sys2Proof/WellFormed.lean ====
section
/-!
DEFINITION. What the part's pins and its trigger word can carry at all (R161, 10.1). A command that is not well-formed
cannot be sent; its meaning answers `Fault.unencodable` (log entry 29).
-/

namespace Sys2Proof

/-- CBL1 and CBL0 carry a burst length of 1 to 4 words (R161, 9.7). -/
def Access.burstOk (a : Access) : Bool := decide (1 ≤ a.beats ∧ a.beats ≤ 4)

/-- A write carries one data word for each beat, a read carries none (R161). -/
def Access.dataOk (a : Access) : Bool :=
  if a.write then a.data.length == a.beats else a.data.isEmpty

/-- An access the controller port can carry. -/
def Access.wellFormed (a : Access) : Bool := a.burstOk && a.dataOk

/-- The trigger word's argument count runs from 0 to 15 (10.1). -/
def Request.wellFormed (r : Request) : Bool := decide (r.args.length ≤ 15)

/-- A command that can be sent. -/
def Instr.wellFormed : Instr → Bool
  | .controllerAccessArrival a => a.wellFormed
  | .startRide r | .stopRide r | .stopNow r | .resetTrip r | .addBoat r | .withdrawBoat r | .reseat r
  | .setPace r | .setProfile r | .commitConfig r | .restartLine r => r.wellFormed
  | .resetAssert _ | .resetRelease | .storeImageRead | .storeReadTimeout | .endOfLoading
  | .controllerRead | .controllerWrite | .writeBurst | .windowAccess | .releaseWrite | .routeWrite | .finWrite
  | .speedWrite | .stayWrite | .consumerIndexWrite | .triggerWrite | .argumentReadComplete
  | .drillTrip _ | .drillSustain _ | .stagingReadComplete | .savePageAck | .savePageTimeout
  | .motionWriteGrant | .motionWriteComplete | .reportRecordWrite | .imageItemWrite
  | .round | .nodeReport _ | .slotMiss _ | .roundSilence | .stuckLow | .breakEnd
  | .enumerationAnswer _ | .enumerationTimeout | .reservationLapse _ | .dwellExpiry _ | .holdExpiry _
  | .pacerIntervalElapsed | .profileStep _ | .finLagExpiry _ | .ctrlResetSense _ | .lineLevelChange _ => true

end Sys2Proof
end

