-- ==== Sys2Proof/Decode.lean ====
section
/-!
DEFINITION. spec/opcode_table.json gives no row a word, a mask or a field, so no word spells a command.
-/

namespace Sys2Proof

/-- The command that a word spells by the table's bits: none, for the table gives no row any bits. -/
def decodeTableWord (_nbits _w : Nat) : Option Instr := none

end Sys2Proof
end

