-- ==== Sys2Proof/Machine/State.lean ====
section
/-!
DEFINITION. The state of the interposer, as plain data: the units of the block overview (00) with what each owns, the
memory behind the memory port, the serial store, the pins and the ride clock, and the queue of waiting commands. Counts,
times, identifiers and stages are `Nat`; what the manual treats as bits is a bit vector.
-/

namespace Sys2Proof.Machine

/-- Bytes by address in canonical form: addresses strictly rising, no entry equal to what an unlisted address reads as. -/
abbrev Memory := List Host.Cell

/-! ## Named values -/

/-- The place of a segment in the flume (R2). -/
inductive SegmentKind where
  | berth | queue | lift | crest | free | runout
  deriving DecidableEq, Repr

/-- The kind of a trackside node (R121). -/
inductive NodeKind where
  | general | berth | brake
  deriving DecidableEq, Repr

/-- The fifteen trip causes (R148) and LINE-RESTART, which is a segment fault cause only (R5, 11.1). -/
inductive Cause where
  | estop | controllerReset | haltRequest | drill | lineDown | nodeLost | eyeFault | phantom | unbidden | overfill
  | wrongWay | burstPassage | early | overdue | brakeShort | lineRestart
  deriving DecidableEq, Repr

/-- What a trip cause's detail names (R150). -/
inductive DetailKind where
  | none | node | edge | segment
  deriving DecidableEq, Repr

/-- The state of an eye (R10). -/
inductive EyeState where
  | clear | blocked | fault | unknown
  deriving DecidableEq, Repr

/-- The status of a boat (R13). -/
inductive BoatStatus where
  | absent | placed | missing
  deriving DecidableEq, Repr

/-- The weight class of a boat (R91). -/
inductive WeightClass where
  | light | medium | heavy
  deriving DecidableEq, Repr

/-- A boat's dwell clock: none, running from its start, or ended by its expiry (R44, R46). -/
inductive DwellClock where
  | none | running (start : Nat) | expired
  deriving DecidableEq, Repr

/-- Why OFFLINE (R143). -/
inductive OfflineReason where
  | noConfig | discovering | lineFailed
  deriving DecidableEq, Repr

/-- The ride state, OFFLINE with its reason (R143). -/
inductive RideState where
  | loading | offline (reason : OfflineReason) | stopped | running | tripped
  deriving DecidableEq, Repr

/-- What a change of ride state came from (R147). -/
inductive Occasion where
  | endOfLoading | lineUp | lineFailed | restartLine | configTake | startRide | stopRide | trip | resetTrip
  deriving DecidableEq, Repr

/-- The line state (R120). -/
inductive LineState where
  | down | discovering | up | failed
  deriving DecidableEq, Repr

/-- What a LINE report names beside the new state (R142, 11.3). -/
inductive LineCause where
  | none | silence | stuckLow | kindMismatch | countMismatch
  deriving DecidableEq, Repr

/-- The state of a node (R121). -/
inductive NodeState where
  | absent | active | missing | lost
  deriving DecidableEq, Repr

/-- A node's result in the sustain drill (R121). -/
inductive SustainResult where
  | untested | passed | failed
  deriving DecidableEq, Repr

/-- The phase of the sustain drill (R159). -/
inductive DrillPhase where
  | withheld | check
  deriving DecidableEq, Repr

/-- The reasons of verdicts, port refusals, hold ends and results (11.1). -/
inductive Reason where
  | partialWrite | burst | unbound | malformed | notRunning | segmentFaulted | sourceEmpty | boatDoubt | boatKept
  | holdFull | routeBusy | partOwned | windowVacant | room | pace | crest | floor | speedLimit | reservationEnded
  | wrongState | boatInService | noRoom | boatAbsent | overCapacity | drillActive | sustainFailed | lineNotUp | nodeLost
  | eyeFault | estopOpen | controllerInReset | configInvalid | unknownKind | badArguments
  deriving DecidableEq, Repr

/-- The outcome of a passage (R36). -/
inductive PassageOutcome where
  | reserved | wrongWay | unbidden | free | overfill
  deriving DecidableEq, Repr

/-- The verdicts that are recorded (R66). -/
inductive VerdictKind where
  | amend | hold | refuse
  deriving DecidableEq, Repr

/-- How a held entry ended (R80). -/
inductive HoldOutcome where
  | performed | dropped | expired | superseded | purged
  deriving DecidableEq, Repr

/-- The notes of a CONFIG report (10.3). -/
inductive ConfigNote where
  | loaded | pending | pendingReplaced | refused | taken | profileTaken | saved | saveFailed
  deriving DecidableEq, Repr

/-- The outcomes of a drill (11.3). -/
inductive DrillOutcome where
  | done | passed | failed | aborted
  deriving DecidableEq, Repr

/-- The twelve directives (10.1). -/
inductive DirectiveKind where
  | startRide | stopRide | stopNow | resetTrip | drill | addBoat | withdrawBoat | reseat | setPace | setProfile
  | commitConfig | restartLine
  deriving DecidableEq, Repr

/-- The outcomes of a directive (R177). -/
inductive ResultOutcome where
  | done | refused | busy | invalid | aborted
  deriving DecidableEq, Repr

/-- Where the active configuration came from (R179). -/
inductive ConfigSource where
  | none | store | commit
  deriving DecidableEq, Repr

/-- How far LOADING has come (R184). -/
inductive LoadPhase where
  | notBegun | reading | installed | invalid | finished
  deriving DecidableEq, Repr

/-- A run-out's fin feedback (R104, R111). -/
inductive FinFeedback where
  | none | noReading | stage (n : Nat)
  deriving DecidableEq, Repr

/-- A run-out's fin-lag timer (R104, R112). -/
inductive FinTimer where
  | idle | running (start : Nat) | expired
  deriving DecidableEq, Repr

/-! ## The configuration of a flume -/

/-- The configured fields of a segment (R1). A release window of 0 and a maximum dwell of none stand for absent. -/
structure SegmentCfg where
  kind          : SegmentKind
  capacity      : Nat
  gated         : Bool
  weigh         : Bool
  berth         : Option Nat
  conveyor      : Option Nat
  runout        : Option Nat
  feed          : Option Nat
  route         : Option Nat
  releaseWindow : Nat
  minDwell      : Nat
  maxDwell      : Option Nat
  deriving DecidableEq, Repr

/-- The configured fields of an edge (R8). Its branch number follows from the order of the edges. -/
structure EdgeCfg where
  source      : Nat
  destination : Nat
  eyeNode     : Nat
  eyeInput    : Nat
  launch      : Bool
  tag         : Bool
  deriving DecidableEq, Repr

/-- One entry of the region map; a size of 0 marks it absent (R163, 11.5). -/
structure MapEntry where
  base : Nat
  size : Nat
  deriving DecidableEq, Repr

/-- The region map, its ten entries by name (R163). -/
structure RegionMap where
  release : MapEntry
  route   : MapEntry
  fin     : MapEntry
  speed   : MapEntry
  roster  : MapEntry
  ring    : MapEntry
  windows : List MapEntry
  deriving DecidableEq, Repr

/-- One step of a profile (R105). -/
structure ProfileStep where
  time  : Nat
  stage : Nat
  deriving DecidableEq, Repr

/-- The profiles of the three weight classes (R105). -/
structure Profiles where
  light  : List ProfileStep
  medium : List ProfileStep
  heavy  : List ProfileStep
  deriving DecidableEq, Repr

/-- Everything a configuration image sets (10.4). Segments, edges and nodes stand in the order of their identifiers. -/
structure FlumeConfig where
  holdLimit      : Nat
  finLag         : Nat
  launchInterval : Nat
  runMax         : Nat
  t1             : Nat
  t2             : Nat
  ringCount      : Nat
  nodes          : List NodeKind
  segments       : List SegmentCfg
  edges          : List EdgeCfg
  runSet         : List Nat
  maxSpeeds      : List Nat
  profiles       : Profiles
  map            : RegionMap
  deriving DecidableEq, Repr

/-- A validated configuration image: what it sets, the CRC of its header and its bytes, which a save writes (R188). -/
structure Image where
  config : FlumeConfig
  crc    : Nat
  bytes  : List Byte
  deriving DecidableEq, Repr

/-! ## Hold Queue and Verdict Unit -/

/-- A held entry (R69). -/
structure HeldEntry where
  word    : WordRef
  value   : Nat
  amended : Bool
  arrival : Nat
  expiry  : Nat
  reason  : Reason
  deriving DecidableEq, Repr

/-- The Hold Queue: held entries in arrival order, oldest first (R69). -/
structure HoldQueue where
  entries : List HeldEntry
  deriving DecidableEq, Repr

/-- The shadows by bank and index; none for an unbound word and for an unknown shadow (R50). -/
structure Shadows where
  release : List (Option Nat)
  route   : List (Option Nat)
  fin     : List (Option Nat)
  speed   : List (Option Nat)
  deriving DecidableEq, Repr

/-- The last-verdict block's fields (R66). -/
structure LastVerdict where
  time    : Nat
  word    : WordRef
  written : Word
  kind    : VerdictKind
  reason  : Reason
  stored  : Option Nat
  boat    : Nat
  deriving DecidableEq, Repr

/-- The Verdict Unit: the shadows and the last-verdict block, none while cleared (R50, R66). -/
structure VerdictUnit where
  shadows : Shadows
  last    : Option LastVerdict
  deriving DecidableEq, Repr

/-! ## Report Writer -/

/-- What a report record says (11.3); its time and gap mark stand beside it. -/
inductive Report where
  | passage (boat edge : Nat) (outcome : PassageOutcome) (early : Bool) (source destination : Nat)
  | verdict (v : LastVerdict)
  | holdEnd (entry : HeldEntry) (outcome : HoldOutcome) (reason : Option Reason) (boat : Nat)
  | lapse (boat edge deadline : Nat)
  | identity (boat edge tag : Nat)
  | segmentFault (segment : Nat) (cause : Cause)
  | trip (cause : Cause) (detailKind : DetailKind) (detail : Nat) (additional : Bool) (causes : List Cause)
  | state (previous new : RideState) (occasion : Occasion)
  | node (position : Nat) (previous new : NodeState) (misses : Nat) (estopOpen : Bool)
  | line (new : LineState) (cause : LineCause) (detail : Nat)
  | floorLift (runout floor shadow : Nat)
  | stallStop (conveyor boat shadow : Nat)
  | config (note : ConfigNote) (check item crc extra : Nat)
  | drill (sustain : Bool) (outcome : DrillOutcome) (count : Nat) (positions : List Nat)
  deriving DecidableEq, Repr

/-- The Report Writer's indices and gap flag (R180, R181). -/
structure ReportWriter where
  assigned  : Nat
  consumer  : Nat
  published : Nat
  gap       : Bool
  deriving DecidableEq, Repr

/-! ## Passage Unit -/

/-- Who decided a motion write, and what its end reports or clears (R83, R84). A performance carries its entry and the
boat of the reservation its verdict created, if it created one (R74, R76). -/
inductive MotionOrigin where
  | performance (entry : HeldEntry) (boat : Option Nat)
  | autoClose | lapseClose | floorLift (runout : Nat) | stallStop (conveyor : Nat) | safe
  deriving DecidableEq, Repr

/-- A motion write: word, address and value fixed at its decision (R81). `oldMap` marks a write that a configuration
take has left behind: it goes to its old address and changes no shadow (R84). -/
structure MotionWrite where
  word   : WordRef
  addr   : Nat
  value  : Nat
  origin : MotionOrigin
  oldMap : Bool
  deriving DecidableEq, Repr

/-- The image items: roster records, status page items, the result record (R172, R178). -/
inductive ImageItem where
  | roster (boat : Nat) | segment (id : Nat) | reservations | lastVerdict | holdQueue | berth (index : Nat) | pacer
  | brake | shadows | ride | line | node (position : Nat) | passage | config | result | producer | consumer | spare
  deriving DecidableEq, Repr

/-- A request of the UPKEEP class (R171, R172). A roster image asked for by LOADING or a take also clears the STAY word
(R20, R21). A record is written with the contents fixed when it was assigned. -/
inductive UpkeepRequest where
  | image (item : ImageItem) (clearStay : Bool)
  | record (slot : Nat) (gap : Bool) (time : Nat) (report : Report) (next : Nat)
  | argument (index : Nat)
  | staging (offset words : Nat)
  deriving DecidableEq, Repr

/-- What ends a controller access (R161): DONE, or ERROR with the words delivered zero. -/
structure Response where
  done : Bool
  data : List Word
  deriving DecidableEq, Repr

/-- The last port refusal (R169). -/
structure PortRefusal where
  time   : Nat
  addr   : Nat
  write  : Bool
  beats  : Nat
  reason : Reason
  deriving DecidableEq, Repr

/-- The Passage Unit: the arbiter's classes, the motion write that holds the memory port, the controller port's last
response and the passage block (R169, R171). The region map is part of the active configuration. -/
structure PassageUnit where
  motion      : List MotionWrite
  port        : Option MotionWrite
  access      : Option Access
  upkeep      : List UpkeepRequest
  upkeepWait  : Nat
  response    : Option Response
  refusals    : Nat
  lastRefusal : Option PortRefusal
  deriving DecidableEq, Repr

/-! ## Ride Tracker -/

/-- The live fields of a segment: its first fault cause, none while SOUND, and its boat queue, head first (R1, R3, R5). -/
structure SegmentLive where
  fault : Option Cause
  queue : List Nat
  deriving DecidableEq, Repr

/-- What is kept for the eye of an edge (R10). -/
structure EyeLive where
  state    : EyeState
  baseline : Option Nat
  deriving DecidableEq, Repr

/-- A reservation (R11). -/
structure Reservation where
  boat     : Nat
  edge     : Nat
  deadline : Nat
  deriving DecidableEq, Repr

/-- A boat's roster record (R13, R14, R15) with its dwell clock (R44) and its next profile step time (R107). -/
structure BoatRecord where
  status        : BoatStatus
  segment       : Option Nat
  position      : Nat
  arrival       : Nat
  weightClass   : Option WeightClass
  lastWeight    : Nat
  weighStale    : Bool
  identityDoubt : Bool
  launchCount   : Nat
  lastEdge      : Option Nat
  stay          : Bool
  dwell         : DwellClock
  nextStep      : Option Nat
  deriving DecidableEq, Repr

/-- The Ride Tracker: segments and eyes by identifier, reservations in creation order, the 32 roster records. -/
structure RideTracker where
  segments     : List SegmentLive
  eyes         : List EyeLive
  reservations : List Reservation
  roster       : List BoatRecord
  deriving DecidableEq, Repr

/-! ## Berth Unit and Brake Unit -/

/-- The live fields of a berth record (R87). -/
structure BerthLive where
  index      : Nat
  lastWeight : Nat
  age        : Nat
  deriving DecidableEq, Repr

/-- The launch pacer (R94 to R98). `lastLaunch` is none while the interval clock is saturated; `reached` says that the
clock's reaching of the active interval has been taken (R95). The stages are as last handed on; a verdict reads them from
their conditions (log entry 27). -/
structure Pacer where
  interval   : Nat
  buffer     : Nat
  lastLaunch : Option Nat
  reached    : Bool
  runLoad    : Nat
  stage1     : Bool
  stage2     : Bool
  deriving DecidableEq, Repr

/-- The Berth Unit: a record for each configured berth index, and the pacer, none without a configuration (R88, R99). -/
structure BerthUnit where
  berths : List BerthLive
  pacer  : Option Pacer
  deriving DecidableEq, Repr

/-- The live fields of a run-out record (R104). -/
structure RunoutLive where
  index       : Nat
  floor       : Nat
  feedback    : FinFeedback
  timer       : FinTimer
  waitingLift : Option Nat
  deriving DecidableEq, Repr

/-- The live fields of a conveyor record (R114). -/
structure ConveyorLive where
  index       : Nat
  stalled     : Bool
  stopWaiting : Bool
  deriving DecidableEq, Repr

/-- The Brake Unit: run-outs, conveyors, the profile table with its pending flag (R104, R105, R114). -/
structure BrakeUnit where
  runouts   : List RunoutLive
  conveyors : List ConveyorLive
  active    : Profiles
  buffer    : Profiles
  pending   : Bool
  deriving DecidableEq, Repr

/-! ## Line Controller -/

/-- An entry of the node table (R121). -/
structure NodeEntry where
  expected   : Option NodeKind
  discovered : Option NodeKind
  serial     : Word
  state      : NodeState
  misses     : Nat
  estopOpen  : Bool
  sustained  : Bool
  result     : SustainResult
  deriving DecidableEq, Repr

/-- Where a discovery stands (R131, R132). -/
inductive Discovery where
  | idle | breaking (since : Nat) | query (position sentAt : Nat)
  deriving DecidableEq, Repr

/-- What the part last put on the course line (R120, R122, R131). -/
inductive LineDrive where
  | released | lowForBreak | frame (bytes : List Byte)
  deriving DecidableEq, Repr

/-- The Line Controller (R120 to R132). -/
structure LineController where
  state     : LineState
  nodes     : List NodeEntry
  round     : Nat
  silence   : Nat
  lowSince  : Option Nat
  slot      : Option Nat
  heard     : Bool
  nextRound : Nat
  discovery : Discovery
  tx        : LineDrive
  deriving DecidableEq, Repr

/-! ## Ride State Unit, Directive Unit, Store Loader -/

/-- The trip block (R150). -/
structure TripBlock where
  first      : Option Cause
  detailKind : DetailKind
  detail     : Nat
  time       : Nat
  causes     : List Cause
  additional : Nat
  deriving DecidableEq, Repr

/-- The sustain drill in progress (R159): its tag, its phase and how many rounds of that phase are left. -/
structure Drill where
  tag        : BitVec 16
  phase      : DrillPhase
  roundsLeft : Nat
  deriving DecidableEq, Repr

/-- The Ride State Unit and its RIDE-PERMIT output (R143, R150, R159); `senseLevel` is CTRL-RESET-SENSE as last taken. -/
structure RideUnit where
  state      : RideState
  permit     : Bool
  trip       : TripBlock
  drill      : Option Drill
  senseLevel : Bool
  deriving DecidableEq, Repr

/-- A directive in the argument phase (R174, R176). -/
structure ArgumentPhase where
  tag   : BitVec 16
  kind  : DirectiveKind
  count : Nat
  read  : List Word
  deriving DecidableEq, Repr

/-- A long directive in progress (R174); DRILL SUSTAIN is the Ride State Unit's drill. -/
inductive LongDirective where
  | commit (tag : BitVec 16) (length : Nat) (read : List Byte)
  | restartLine (tag : BitVec 16)
  deriving DecidableEq, Repr

/-- A result record (R177). `kind` is the code the trigger carried. -/
structure ResultRecord where
  tag     : BitVec 16
  kind    : Nat
  outcome : ResultOutcome
  reason  : Option Reason
  detail  : List Nat
  count   : Nat
  deriving DecidableEq, Repr

/-- The Directive Unit (R174, R177). -/
structure DirectiveUnit where
  argument    : Option ArgumentPhase
  long        : Option LongDirective
  resultCount : Nat
  result      : Option ResultRecord
  deriving DecidableEq, Repr

/-- The save state (R179, R188, R189). -/
inductive SaveState where
  | idle
  | saving (page sentAt : Nat) (image : List Byte) (crc : Nat)
  | saved
  | failed (page : Nat)
  deriving DecidableEq, Repr

/-- The Store Loader and the serial store behind it (R179, R184, R186, R188). -/
structure StoreLoader where
  active       : Option FlumeConfig
  activeCrc    : Nat
  source       : ConfigSource
  pendingImage : Option Image
  save         : SaveState
  failure      : Nat × Nat
  phase        : LoadPhase
  store        : Memory
  deriving DecidableEq, Repr

/-! ## The machine -/

/-- The whole state of the part, its memory, its store and its queue of commands. -/
structure State where
  pending       : List Instr
  clock         : Nat
  resetAsserted : Bool
  sensePin      : Bool
  memory        : Memory
  passage       : PassageUnit
  verdict       : VerdictUnit
  hold          : HoldQueue
  tracker       : RideTracker
  berth         : BerthUnit
  brake         : BrakeUnit
  line          : LineController
  ride          : RideUnit
  directive     : DirectiveUnit
  report        : ReportWriter
  loader        : StoreLoader
  deriving DecidableEq, Repr

/-- Why a step stops. -/
inductive Fault where
  /-- Raised by the meanings of CONTROLLER_ACCESS_ARRIVAL and of the directives, for operands that the part's pins or its
  trigger word cannot carry (R161, 10.1). Safe: no such command can be sent (log entry 29). -/
  | unencodable
  deriving DecidableEq, Repr

/-- Why a command has no meaning. -/
inductive Refusal where
  /-- Raised by exec's arm of a command that is not modelled, by its mnemonic. Safe: the machine stops. -/
  | notModelled (mnemonic : String)
  deriving DecidableEq, Repr

/-! ## Reset -/

/-- A configuration with nothing in it: what an access to configured data sees while none is in effect. -/
def FlumeConfig.empty : FlumeConfig :=
  { holdLimit := 0, finLag := 0, launchInterval := 0, runMax := 0, t1 := 0, t2 := 0, ringCount := 0, nodes := [],
    segments := [], edges := [], runSet := [], maxSpeeds := [], profiles := ⟨[], [], []⟩,
    map := ⟨⟨0, 0⟩, ⟨0, 0⟩, ⟨0, 0⟩, ⟨0, 0⟩, ⟨0, 0⟩, ⟨0, 0⟩, []⟩ }

/-- The ABSENT values of a roster record with a clear STAY copy (R14). -/
def BoatRecord.vacant : BoatRecord :=
  { status := .absent, segment := none, position := 0, arrival := 0, weightClass := none, lastWeight := 0,
    weighStale := false, identityDoubt := false, launchCount := 0, lastEdge := none, stay := false, dwell := .none,
    nextStep := none }

/-- A node table entry under RESET (R121). -/
def NodeEntry.blank : NodeEntry :=
  { expected := none, discovered := none, serial := 0, state := .absent, misses := 0, estopOpen := false,
    sustained := false, result := .untested }

/-- No shadow known: 32 release words and four words in each other bank (R48, R50). -/
def Shadows.unknown : Shadows :=
  ⟨List.replicate 32 none, List.replicate 4 none, List.replicate 4 none, List.replicate 4 none⟩

/-- A cleared trip block (R150). -/
def TripBlock.cleared : TripBlock :=
  { first := none, detailKind := .none, detail := 0, time := 0, causes := [], additional := 0 }

/-- The part while RESET is asserted, with nothing written to memory or store. Reset values the spec gives are those of
R20, R50, R66, R69, R88, R99, R104, R114, R120, R121, R143, R150, R169, R171, R173, R174, R179, R180; the others are
named in log entries 4, 5, 6 and 36, the three empty profiles of the profile table and the ring indices at 0 among them. -/
def State.reset : State :=
  { pending := []
    clock := 0
    resetAsserted := true
    sensePin := false
    memory := []
    passage := { motion := [], port := none, access := none, upkeep := [], upkeepWait := 0, response := none,
                 refusals := 0, lastRefusal := none }
    verdict := { shadows := .unknown, last := none }
    hold := { entries := [] }
    tracker := { segments := [], eyes := [], reservations := [], roster := List.replicate 32 .vacant }
    berth := { berths := [], pacer := none }
    brake := { runouts := [], conveyors := [], active := ⟨[], [], []⟩, buffer := ⟨[], [], []⟩, pending := false }
    line := { state := .down, nodes := List.replicate 16 .blank, round := 0, silence := 0, lowSince := none,
              slot := none, heard := false, nextRound := 0, discovery := .idle, tx := .released }
    ride := { state := .loading, permit := false, trip := .cleared, drill := none, senseLevel := false }
    directive := { argument := none, long := none, resultCount := 0, result := none }
    report := { assigned := 0, consumer := 0, published := 0, gap := false }
    loader := { active := none, activeCrc := 0, source := .none, pendingImage := none, save := .idle, failure := (0, 0),
                phase := .notBegun, store := [] } }

end Sys2Proof.Machine
end

