-- ==== Sys2Proof/Machine/Ops.lean ====
section
/-!
DEFINITION. The named operations over memory and over the units' data that every meaning is built from: bytes and words
of memory, the setters of the units, lookups in the active configuration, segments, boats, eyes, reservations, records
called for, motion writes decided, results answered, and what a controller access ends with.
-/

namespace Sys2Proof.Machine

/-! ## Bytes and words -/

/-- Byte `i` of a number, little-endian. -/
def byteOf (n i : Nat) : Byte := BitVec.ofNat 8 (n >>> (8 * i))

/-- One byte, two bytes, four bytes of a number, little-endian (11 "Multi-byte fields"). -/
def le1 (n : Nat) : List Byte := [byteOf n 0]
def le2 (n : Nat) : List Byte := [byteOf n 0, byteOf n 1]
def le4 (n : Nat) : List Byte := [byteOf n 0, byteOf n 1, byteOf n 2, byteOf n 3]

/-- The number that bytes spell, little-endian. -/
def leNat : List Byte → Nat
  | [] => 0
  | b :: bs => b.toNat + 256 * leNat bs

/-- `bs` followed by zero bytes up to `n` bytes, cut there: the bytes of an item that carry no field are zero (R190). -/
def padTo (n : Nat) (bs : List Byte) : List Byte := (bs ++ List.replicate (n - bs.length) 0).take n

/-- A number with one bit for each listed position. -/
def bitSet (ns : List Nat) : Nat := ns.foldl (fun acc n => acc ||| (1 <<< n)) 0

/-- Whether a number has its bit `i`. -/
def hasBit (n i : Nat) : Bool := n.testBit i

/-- Apply a function to the element at a position, if there is one. -/
def modifyAt {α : Type} (f : α → α) : List α → Nat → List α
  | [], _ => []
  | x :: xs, 0 => f x :: xs
  | x :: xs, i + 1 => x :: modifyAt f xs i

/-! ## Memory -/

/-- What memory holds at an address. -/
def Memory.read : Memory → Nat → Byte
  | [], _ => Config.unlistedByte
  | (a, b) :: m, k => if a = k then b else Memory.read m k

/-- Memory with one byte stored; the byte an unlisted address reads as is stored by listing nothing. -/
def Memory.write : Memory → Nat → Byte → Memory
  | [], k, v => if v = Config.unlistedByte then [] else [(k, v)]
  | (a, b) :: m, k, v =>
    if k < a then (if v = Config.unlistedByte then (a, b) :: m else (k, v) :: (a, b) :: m)
    else if k = a then (if v = Config.unlistedByte then m else (k, v) :: m)
    else (a, b) :: Memory.write m k v

/-- The canonical form: addresses strictly rise from `low` on, and no entry holds what an unlisted address reads as. -/
def Memory.wfFrom : Nat → Memory → Bool
  | _, [] => true
  | low, (a, b) :: m => decide (low ≤ a) && decide (b ≠ Config.unlistedByte) && Memory.wfFrom (a + 1) m

/-- Memory is in canonical form. -/
def Memory.wf (m : Memory) : Bool := Memory.wfFrom 0 m

/-- Store bytes at rising addresses. -/
def Memory.writeBytes : Memory → Nat → List Byte → Memory
  | m, _, [] => m
  | m, a, b :: bs => Memory.writeBytes (Memory.write m a b) (a + 1) bs

/-- The `n` bytes from an address on. -/
def Memory.readBytes (m : Memory) (a : Nat) : Nat → List Byte
  | 0 => []
  | n + 1 => Memory.read m a :: Memory.readBytes m (a + 1) n

/-- The word at an address, little-endian (00 "Memory words"). -/
def Memory.readWord (m : Memory) (a : Nat) : Word :=
  Memory.read m (a + 3) ++ Memory.read m (a + 2) ++ Memory.read m (a + 1) ++ Memory.read m a

/-- Byte lane `i` of a word (R161). -/
def laneByte (w : Word) (i : Nat) : Byte := (w >>> (8 * i)).setWidth 8

/-- Store the enabled lanes of a word; lanes not enabled keep their bytes (R166). -/
def Memory.writeLanes (m : Memory) (a : Nat) (lanes : Lanes) (w : Word) : Memory :=
  let put (m : Memory) (i : Nat) : Memory := if lanes.getLsbD i then Memory.write m (a + i) (laneByte w i) else m
  put (put (put (put m 0) 1) 2) 3

/-- Store a whole word. -/
def Memory.writeWord (m : Memory) (a : Nat) (w : Word) : Memory := Memory.writeLanes m a 15 w

/-! ## The setters of the units -/

/-- Replace the ride clock. -/
def State.setClock (s : State) (v : Nat) : State := { s with clock := v }

/-- Replace the RESET pin. -/
def State.setResetAsserted (s : State) (v : Bool) : State := { s with resetAsserted := v }

/-- Replace the CTRL-RESET-SENSE pin. -/
def State.setSensePin (s : State) (v : Bool) : State := { s with sensePin := v }

/-- Replace image memory. -/
def State.setMemory (s : State) (v : Memory) : State := { s with memory := v }

/-- Replace the Passage Unit. -/
def State.setPassage (s : State) (v : PassageUnit) : State := { s with passage := v }

/-- Replace the Verdict Unit. -/
def State.setVerdict (s : State) (v : VerdictUnit) : State := { s with verdict := v }

/-- Replace the Hold Queue. -/
def State.setHold (s : State) (v : HoldQueue) : State := { s with hold := v }

/-- Replace the Ride Tracker. -/
def State.setTracker (s : State) (v : RideTracker) : State := { s with tracker := v }

/-- Replace the Berth Unit. -/
def State.setBerth (s : State) (v : BerthUnit) : State := { s with berth := v }

/-- Replace the Brake Unit. -/
def State.setBrake (s : State) (v : BrakeUnit) : State := { s with brake := v }

/-- Replace the Line Controller. -/
def State.setLine (s : State) (v : LineController) : State := { s with line := v }

/-- Replace the Ride State Unit. -/
def State.setRide (s : State) (v : RideUnit) : State := { s with ride := v }

/-- Replace the Directive Unit. -/
def State.setDirective (s : State) (v : DirectiveUnit) : State := { s with directive := v }

/-- Replace the Report Writer. -/
def State.setReport (s : State) (v : ReportWriter) : State := { s with report := v }

/-- Replace the Store Loader. -/
def State.setLoader (s : State) (v : StoreLoader) : State := { s with loader := v }

/-! ## The active configuration -/

/-- A configuration is in effect: outside RESET, the read at start-up and OFFLINE(NO-CONFIG). -/
def State.configured (s : State) : Bool := s.loader.active.isSome

/-- The active configuration; with none in effect it has no segments, edges, nodes or map entries. -/
def State.config (s : State) : FlumeConfig := s.loader.active.getD .empty

/-- A segment that no configuration defines. -/
def SegmentCfg.unconfigured : SegmentCfg :=
  { kind := .queue, capacity := 0, gated := false, weigh := false, berth := none, conveyor := none, runout := none,
    feed := none, route := none, releaseWindow := 0, minDwell := 0, maxDwell := none }

/-- The configured fields of a segment. -/
def FlumeConfig.segment (c : FlumeConfig) (g : Nat) : SegmentCfg := c.segments.getD g .unconfigured

/-- The identifiers of the configured segments, ascending. -/
def FlumeConfig.segmentIds (c : FlumeConfig) : List Nat := List.range c.segments.length

/-- The identifiers of the configured edges, ascending. -/
def FlumeConfig.edgeIds (c : FlumeConfig) : List Nat := List.range c.edges.length

/-- The configured node positions, ascending (R121). -/
def FlumeConfig.positions (c : FlumeConfig) : List Nat := (List.range c.nodes.length).map (· + 1)

/-- Whether an edge ends at a segment. -/
def FlumeConfig.edgeInto (c : FlumeConfig) (e g : Nat) : Bool := (c.edges[e]?).any (·.destination == g)

/-- Whether an edge starts at a segment. -/
def FlumeConfig.edgeFrom (c : FlumeConfig) (e g : Nat) : Bool := (c.edges[e]?).any (·.source == g)

/-- Whether an edge is a launch edge (R9). -/
def FlumeConfig.edgeLaunch (c : FlumeConfig) (e : Nat) : Bool := (c.edges[e]?).any (·.launch)

/-- The exit edges of a segment, the lower identifier first: branch 0, then branch 1 (R8). -/
def FlumeConfig.exits (c : FlumeConfig) (g : Nat) : List Nat := c.edgeIds.filter (c.edgeFrom · g)

/-- The entry edges of a segment. -/
def FlumeConfig.entries (c : FlumeConfig) (g : Nat) : List Nat := c.edgeIds.filter (c.edgeInto · g)

/-- The edge whose eye is an input of a node position (R10). -/
def FlumeConfig.edgeAtEye (c : FlumeConfig) (position input : Nat) : Option Nat :=
  c.edgeIds.find? fun e => (c.edges[e]?).any fun d => d.eyeNode == position && d.eyeInput == input

/-- The BERTH segment that carries a berth index (R87). -/
def FlumeConfig.berthSegment (c : FlumeConfig) (i : Nat) : Option Nat :=
  c.segmentIds.find? fun g => (c.segment g).kind == .berth && (c.segment g).berth == some i

/-- The RUNOUT segment that carries a run-out index (R104). -/
def FlumeConfig.runoutSegment (c : FlumeConfig) (r : Nat) : Option Nat :=
  c.segmentIds.find? fun g => (c.segment g).kind == .runout && (c.segment g).runout == some r

/-- The LIFT and the CREST of a conveyor index (R114). -/
def FlumeConfig.liftSegment (c : FlumeConfig) (i : Nat) : Option Nat :=
  c.segmentIds.find? fun g => (c.segment g).kind == .lift && (c.segment g).conveyor == some i
def FlumeConfig.crestSegment (c : FlumeConfig) (i : Nat) : Option Nat :=
  c.segmentIds.find? fun g => (c.segment g).kind == .crest && (c.segment g).conveyor == some i

/-- The position of the node that carries the eye of a segment's exit edge with the lowest identifier. -/
def FlumeConfig.exitEyeNode (c : FlumeConfig) (g : Nat) : Option Nat :=
  match c.exits g with
  | e :: _ => (c.edges[e]?).map (·.eyeNode)
  | [] => none

/-- The weighing node of a berth index (R87): a berth without the weigh flag has none. -/
def FlumeConfig.weighingNode (c : FlumeConfig) (i : Nat) : Option Nat :=
  match c.berthSegment i with
  | some g => if (c.segment g).weigh then c.exitEyeNode g else none
  | none => none

/-- The fin node of a run-out index (R104). -/
def FlumeConfig.finNode (c : FlumeConfig) (r : Nat) : Option Nat := (c.runoutSegment r).bind c.exitEyeNode

/-- The four indices a bank of berths, run-outs, conveyors or route words may use. -/
def indices4 : List Nat := [0, 1, 2, 3]

/-! ## Guarded words -/

/-- The map entry of a bank (R48, R163). -/
def RegionMap.bank (m : RegionMap) : Bank → MapEntry
  | .release => m.release
  | .route => m.route
  | .fin => m.fin
  | .speed => m.speed

/-- A guarded word is bound when the configuration gives it an actuator (R48). -/
def FlumeConfig.bound (c : FlumeConfig) (w : WordRef) : Bool :=
  match w.bank with
  | .release => decide (w.index < c.segments.length) && (c.segment w.index).gated
  | .route => c.segmentIds.any fun g => (c.segment g).route == some w.index
  | .fin => (c.runoutSegment w.index).isSome
  | .speed => (c.liftSegment w.index).isSome && (c.crestSegment w.index).isSome

/-- The address of a guarded word: the bank's base plus 4 times its index (R48). -/
def FlumeConfig.wordAddr (c : FlumeConfig) (w : WordRef) : Nat := (c.map.bank w.bank).base + 4 * w.index

/-- The shadows of one bank. -/
def Shadows.bank (t : Shadows) : Bank → List (Option Nat)
  | .release => t.release
  | .route => t.route
  | .fin => t.fin
  | .speed => t.speed

/-- The shadow of a word: none while it is unknown, and for an unbound word (R50). -/
def Shadows.get (t : Shadows) (w : WordRef) : Option Nat := (t.bank w.bank).getD w.index none

/-- Record the value last stored in a word. -/
def Shadows.put (t : Shadows) (w : WordRef) (v : Nat) : Shadows :=
  match w.bank with
  | .release => { t with release := modifyAt (fun _ => some v) t.release w.index }
  | .route => { t with route := modifyAt (fun _ => some v) t.route w.index }
  | .fin => { t with fin := modifyAt (fun _ => some v) t.fin w.index }
  | .speed => { t with speed := modifyAt (fun _ => some v) t.speed w.index }

/-- The shadow of a guarded word. -/
def State.shadow (s : State) (w : WordRef) : Option Nat := s.verdict.shadows.get w

/-- A shadow takes the value of a completed write, if its word is bound (R50, R81). -/
def State.storeShadow (s : State) (w : WordRef) (v : Nat) : State :=
  if s.config.bound w then s.setVerdict { s.verdict with shadows := s.verdict.shadows.put w v } else s

/-! ## Segments, boats, eyes, reservations -/

/-- The live fields of a segment; one that is not configured is SOUND and empty. -/
def State.segment (s : State) (g : Nat) : SegmentLive := s.tracker.segments.getD g ⟨none, []⟩

/-- The boat queue of a segment, head first (R3). -/
def State.queue (s : State) (g : Nat) : List Nat := (s.segment g).queue

/-- The head boat of a segment, 0 for none (R13, 11 "carries 0 for a boat"). -/
def State.head (s : State) (g : Nat) : Nat := (s.queue g).headD 0

/-- A segment's condition is FAULTED (R5). -/
def State.faulted (s : State) (g : Nat) : Bool := (s.segment g).fault.isSome

/-- The roster record of a boat; boat 0 is no boat (R13). -/
def State.boat (s : State) (b : Nat) : BoatRecord :=
  match b with
  | 0 => .vacant
  | n + 1 => s.tracker.roster.getD n .vacant

/-- Change the roster record of a boat. -/
def State.setBoat (s : State) (b : Nat) (f : BoatRecord → BoatRecord) : State :=
  match b with
  | 0 => s
  | n + 1 => s.setTracker { s.tracker with roster := modifyAt f s.tracker.roster n }

/-- The boats in service: PLACED or MISSING (R13). -/
def State.inService (s : State) : Bool := s.tracker.roster.any fun r => r.status != .absent

/-- What is kept for the eye of an edge. -/
def State.eye (s : State) (e : Nat) : EyeLive := s.tracker.eyes.getD e ⟨.unknown, none⟩

/-- Change what is kept for the eye of an edge. -/
def State.setEye (s : State) (e : Nat) (f : EyeLive → EyeLive) : State :=
  s.setTracker { s.tracker with eyes := modifyAt f s.tracker.eyes e }

/-- Change the live fields of a segment. -/
def State.setSegment (s : State) (g : Nat) (f : SegmentLive → SegmentLive) : State :=
  s.setTracker { s.tracker with segments := modifyAt f s.tracker.segments g }

/-- The reservations into a segment (R1). -/
def State.reservationsInto (s : State) (g : Nat) : List Reservation :=
  s.tracker.reservations.filter fun r => s.config.edgeInto r.edge g

/-- The reservations whose source is a segment (R11). -/
def State.reservationsFrom (s : State) (g : Nat) : List Reservation :=
  s.tracker.reservations.filter fun r => s.config.edgeFrom r.edge g

/-- The reservation that a boat holds (R11). -/
def State.reservationOf (s : State) (b : Nat) : Option Reservation := s.tracker.reservations.find? (·.boat == b)

/-- Remove the reservations that a test selects. -/
def State.dropReservations (s : State) (p : Reservation → Bool) : State :=
  s.setTracker { s.tracker with reservations := s.tracker.reservations.filter fun r => !p r }

/-- A reservation joins the list at its end (R11). -/
def State.addReservation (s : State) (r : Reservation) : State :=
  s.setTracker { s.tracker with reservations := s.tracker.reservations ++ [r] }

/-- Write the queue positions of a queue's boats into their records, counted from `k` (R3, R14). -/
def renumberFrom (k : Nat) : List Nat → State → State
  | [], s => s
  | b :: bs, s => renumberFrom (k + 1) bs (s.setBoat b fun r => { r with position := k })

/-- Replace the queue of a segment and the positions of its boats (R3). -/
def State.setQueue (s : State) (g : Nat) (q : List Nat) : State :=
  renumberFrom 1 q (s.setSegment g fun l => { l with queue := q })

/-- Take a boat out of the queue that holds it; the boats behind it move up (R3). -/
def State.leaveQueue (s : State) (b : Nat) : State :=
  match (s.boat b).segment with
  | some g => s.setQueue g ((s.queue g).filter (· != b))
  | none => s

/-- A boat's record as it arrives in a segment: PLACED there at the ride clock, its dwell clock started if the segment has
a maximum dwell (R17, R36, R44). -/
def State.arrive (s : State) (b g : Nat) : State :=
  s.setBoat b fun r =>
    { r with status := .placed, segment := some g, arrival := s.clock, nextStep := none
             dwell := if (s.config.segment g).maxDwell.isSome then .running s.clock else .none }

/-! ## Report records (R180) -/

/-- A record called for: dropped with the gap flag set when the ring is full, else assigned the next slot, with an UPKEEP
request to write it. With no configuration there is no ring, and nothing is assigned or dropped (R180). -/
def State.callReport (s : State) (r : Report) : State :=
  if s.configured then
    let n := s.config.ringCount
    let next := (s.report.assigned + 1) % n
    if next = s.report.consumer then s.setReport { s.report with gap := true }
    else
      (s.setReport { s.report with assigned := next, gap := false }).setPassage
        { s.passage with
          upkeep := s.passage.upkeep ++ [.record s.report.assigned s.report.gap s.clock r next] }
  else s

/-! ## Motion writes (R81) -/

/-- A motion write is decided: its address is fixed now and it joins the MOTION class (R81). -/
def State.decideMotion (s : State) (w : WordRef) (v : Nat) (origin : MotionOrigin) : State :=
  s.setPassage
    { s.passage with motion := s.passage.motion ++ [⟨w, s.config.wordAddr w, v, origin, false⟩] }

/-! ## Image items (R172) -/

/-- Whether a request asks for an item. -/
def UpkeepRequest.asksFor (i : ImageItem) : UpkeepRequest → Bool
  | .image j _ => j == i
  | .record .. | .argument _ | .staging .. => false

/-- Ask for an image item: while a request for it waits, no second is added (R172). -/
def State.askImage (s : State) (i : ImageItem) (clearStay : Bool) : State :=
  if s.passage.upkeep.any (·.asksFor i) then s
  else s.setPassage { s.passage with upkeep := s.passage.upkeep ++ [.image i clearStay] }

/-- The hold queue's list becomes another one; a change of it asks for the hold queue image at once, whatever the list is by
the event's end (R69). -/
def State.setEntries (s : State) (entries : List HeldEntry) : State :=
  if entries = s.hold.entries then s
  else (s.setHold { s.hold with entries := entries }).askImage .holdQueue false

/-! ## Ends of controller accesses (R161) -/

/-- The controller's access ends with DONE and delivers words. -/
def State.respondDone (s : State) (data : List Word) : State :=
  s.setPassage { s.passage with response := some ⟨true, data⟩ }

/-- The controller's access ends with ERROR; a read delivers zero words in place of its data (R161). -/
def State.respondError (s : State) (a : Access) : State :=
  s.setPassage
    { s.passage with response := some ⟨false, if a.write then [] else List.replicate a.beats 0⟩ }

/-! ## Results of directives (R177) -/

/-- A result replaces the whole result record and raises the result count, which wraps from 65535 to 0 (R177). -/
def State.answer (s : State) (tag : BitVec 16) (kind : Nat) (outcome : ResultOutcome) (reason : Option Reason)
    (detail : List Nat) : State :=
  let n := (s.directive.resultCount + 1) % 65536
  s.setDirective { s.directive with resultCount := n, result := some ⟨tag, kind, outcome, reason, detail, n⟩ }

/-! ## The node table (R121) -/

/-- The entry of a node position; positions count from 1. -/
def State.node (s : State) (p : Nat) : NodeEntry :=
  match p with
  | 0 => .blank
  | n + 1 => s.line.nodes.getD n .blank

/-- Change the entry of a node position. -/
def State.setNode (s : State) (p : Nat) (f : NodeEntry → NodeEntry) : State :=
  match p with
  | 0 => s
  | n + 1 => s.setLine { s.line with nodes := modifyAt f s.line.nodes n }

/-- The lowest of the listed positions whose node table entry passes a test. -/
def State.lowestNode (s : State) (ps : List Nat) (test : NodeEntry → Bool) : Option Nat :=
  ps.find? fun p => test (s.node p)

/-! ## Run-outs, conveyors, berths by index -/

/-- Change the record of a run-out. -/
def State.setRunout (s : State) (r : Nat) (f : RunoutLive → RunoutLive) : State :=
  s.setBrake { s.brake with runouts := s.brake.runouts.map fun x => if x.index = r then f x else x }

/-- The record of a run-out. -/
def State.runout (s : State) (r : Nat) : Option RunoutLive := s.brake.runouts.find? (·.index == r)

/-- Change the record of a conveyor. -/
def State.setConveyor (s : State) (c : Nat) (f : ConveyorLive → ConveyorLive) : State :=
  s.setBrake { s.brake with conveyors := s.brake.conveyors.map fun x => if x.index = c then f x else x }

/-- The record of a conveyor. -/
def State.conveyor (s : State) (c : Nat) : Option ConveyorLive := s.brake.conveyors.find? (·.index == c)

/-- Change the record of a berth. -/
def State.setBerthLive (s : State) (i : Nat) (f : BerthLive → BerthLive) : State :=
  s.setBerth { s.berth with berths := s.berth.berths.map fun x => if x.index = i then f x else x }

/-- The record of a berth. -/
def State.berthLive (s : State) (i : Nat) : Option BerthLive := s.berth.berths.find? (·.index == i)

/-- Fold a change of state over a list, first element first. -/
def eachOf {α : Type} (f : α → State → State) : List α → State → State
  | [], s => s
  | x :: xs, s => eachOf f xs (f x s)

/-- A counter that stops at 65535 (R14, R150, R169). -/
def saturatingSucc (n : Nat) : Nat := min (n + 1) Config.saturation16

end Sys2Proof.Machine
end

