-- ==== Sys2Proof/Machine/Flags.lean ====
section
/-!
DEFINITION. The conditions that verdicts, motion writes and images are computed from: load and room, successors, the
stall condition, brake floors, pacer stages, stale weights, ATTN, the fin-lag timer's inputs. Each is a function of the
state as it stands.
-/

namespace Sys2Proof.Machine

/-! ## Load and room (R4) -/

/-- The load of a segment: its boats plus the reservations into it (R4). -/
def State.load (s : State) (g : Nat) : Nat := (s.queue g).length + (s.reservationsInto g).length

/-- A segment is at capacity when its load is equal to or greater than its capacity (R4). -/
def State.atCapacity (s : State) (g : Nat) : Bool := decide ((s.config.segment g).capacity ≤ s.load g)

/-- A segment has room when its load is less than its capacity (R4). -/
def State.hasRoom (s : State) (g : Nat) : Bool := decide (s.load g < (s.config.segment g).capacity)

/-! ## Successors (R7) -/

/-- The exit edge a segment's head boat would take: its single exit, or the branch that the route shadow selects (R7, R58). -/
def State.routedExit (s : State) (g : Nat) : Option Nat :=
  match s.config.exits g with
  | [e] => some e
  | [e0, e1] =>
    match (s.config.segment g).route with
    | some i =>
      match s.shadow ⟨.route, i⟩ with
      | some 0 => some e0
      | some 1 => some e1
      | _ => none
    | none => none
  | _ => none

/-- The successor of a segment (R7). -/
def State.successor (s : State) (g : Nat) : Option Nat :=
  (s.routedExit g).bind fun e => (s.config.edges[e]?).map (·.destination)

/-- The segment's successor is at capacity: its boats' dwell clocks are excused (R45). -/
def State.successorFull (s : State) (g : Nat) : Bool := (s.successor g).any s.atCapacity

/-- The segment's successor has room. -/
def State.successorOpen (s : State) (g : Nat) : Bool := (s.successor g).any s.hasRoom

/-! ## Conveyors (R115) -/

/-- The stall condition of a conveyor: its CREST holds a boat and the CREST's successor is at capacity (R115). -/
def State.stallCondition (s : State) (c : Nat) : Bool :=
  match s.config.crestSegment c with
  | some g => !(s.queue g).isEmpty && s.successorFull g
  | none => false

/-- The stall condition as the conveyor record holds it. -/
def State.stalled (s : State) (c : Nat) : Bool := (s.conveyor c).any (·.stalled)

/-- A conveyor's maximum speed (R114). -/
def State.maxSpeed (s : State) (c : Nat) : Nat := s.config.maxSpeeds.getD c 0

/-! ## Brake floors (R105, R106) -/

/-- The profile floor at an elapsed time: 4 before the first step, else the stage of the last step reached (R105). -/
def profileFloor (p : List ProfileStep) (elapsed : Nat) : Nat :=
  p.foldl (fun acc step => if step.time ≤ elapsed then step.stage else acc) 4

/-- The profile of a boat's class; a boat with no class is braked as HEAVY (R14, R106). -/
def Profiles.forClass (p : Profiles) : Option WeightClass → List ProfileStep
  | some .light => p.light
  | some .medium => p.medium
  | some .heavy => p.heavy
  | none => p.heavy

/-- The profile floor of a boat at the ride clock (R106 case 2). -/
def State.boatFloor (s : State) (b : Nat) : Nat :=
  profileFloor (s.brake.active.forClass (s.boat b).weightClass) (s.clock - (s.boat b).arrival)

/-- A run-out's feed segment holds a boat, or a reservation leads into the run-out (R106 case 1). -/
def State.runoutExpected (s : State) (g : Nat) : Bool :=
  !(s.reservationsInto g).isEmpty ||
    match (s.config.segment g).feed with
    | some f => !(s.queue f).isEmpty
    | none => false

/-- The brake floor that the ride model and the active profiles give a run-out (R106). -/
def State.floorOf (s : State) (r : Nat) : Nat :=
  match s.config.runoutSegment r with
  | some g => if s.runoutExpected g then 4 else ((s.queue g).map s.boatFloor).foldl max 0
  | none => 0

/-- The brake floor that the run-out record holds (R104). -/
def State.brakeFloor (s : State) (r : Nat) : Nat :=
  match s.runout r with
  | some x => x.floor
  | none => 0

/-- The time of a boat's first profile step that the ride clock has not reached (R107). -/
def State.firstStepAfter (s : State) (b now : Nat) : Option Nat :=
  ((s.brake.active.forClass (s.boat b).weightClass).find? fun step => decide (now < (s.boat b).arrival + step.time)).map
    fun step => (s.boat b).arrival + step.time

/-- The run-outs are quiet: none holds a boat, is reserved into, or has a boat in its feed segment (R110). -/
def State.runoutsQuiet (s : State) : Bool :=
  s.config.segmentIds.all fun g =>
    (s.config.segment g).kind != .runout || ((s.queue g).isEmpty && !s.runoutExpected g)

/-! ## The fin-lag timer's inputs (R112) -/

/-- How the fins stand to their word (R112). -/
inductive FinStanding where
  | short | reached | neither
  deriving DecidableEq, Repr

/-- Fins short of their word, at it, or neither while the feedback is none or the shadow unknown (R112). -/
def finStanding : FinFeedback → Option Nat → FinStanding
  | .none, _ => .neither
  | _, none => .neither
  | .noReading, some _ => .short
  | .stage n, some v => if n < v then .short else .reached

/-- The fin-lag timer's table (R112). -/
def FinTimer.next (now : Nat) : FinTimer → FinStanding → FinTimer
  | .idle, .short => .running now
  | .idle, _ => .idle
  | .running t, .short => .running t
  | .running _, _ => .idle
  | .expired, .short => .expired
  | .expired, _ => .idle

/-! ## Berth weights (R87, R91) -/

/-- A berth's weight is stale when its age is above 32 or its weight is 65535 (R87). -/
def BerthLive.stale (b : BerthLive) : Bool := decide (Config.staleAge < b.age) || b.lastWeight == Config.noWeight

/-- The weight class of a fresh weight (R91). -/
def FlumeConfig.classOf (c : FlumeConfig) (w : Nat) : WeightClass :=
  if w < c.t1 then .light else if w < c.t2 then .medium else .heavy

/-! ## The launch pacer (R94 to R97) -/

/-- The run load: the loads of the run set's segments (R94). -/
def State.runLoad (s : State) : Nat := (s.config.runSet.map s.load).sum

/-- The interval clock, saturating at 65535 (R95). -/
def State.intervalClock (s : State) (p : Pacer) : Nat :=
  match p.lastLaunch with
  | some t => min (s.clock - t) Config.saturated
  | none => Config.saturated

/-- A reservation on a launch edge is outstanding (R95). -/
def State.launchReserved (s : State) : Bool := s.tracker.reservations.any fun r => s.config.edgeLaunch r.edge

/-- The interval clock stands at or above the active interval (R95). In the millisecond in which it comes to stand there,
its reaching is an event of its own, and the clock counts as below the interval until that event is taken (log entry 27). -/
def State.intervalMet (s : State) (p : Pacer) : Bool := p.reached || decide (p.interval < s.intervalClock p)

/-- Pacer stage 1 is met (R95). -/
def State.stage1Met (s : State) (p : Pacer) : Bool := !s.launchReserved && s.intervalMet p

/-- Pacer stage 2 is met (R96). -/
def State.stage2Met (s : State) : Bool := decide (s.runLoad < s.config.runMax)

/-- The pacer permits a launch when both stages are met at the moment of the verdict (R97). -/
def State.pacerPermits (s : State) : Bool :=
  match s.berth.pacer with
  | some p => s.stage1Met p && s.stage2Met
  | none => false

/-! ## Windows (R100) -/

/-- The boat that a berth's window stands for: the berth's head boat, 0 for none (R100). -/
def State.windowBoat (s : State) (w : Nat) : Nat :=
  match s.config.berthSegment w with
  | some g => s.head g
  | none => 0

/-! ## Toward safe (R49) -/

/-- A value in range for its bank (R49). -/
def inRange : Bank → Nat → Bool
  | .release, v | .route, v => decide (v ≤ 1)
  | .fin, v => decide (v ≤ 4)
  | .speed, v => decide (v ≤ 1000)

/-- The safe value of a bank's words; a route word has none and takes 0 as its initial value (R49, R84). -/
def safeValue : Bank → Nat
  | .release => 0
  | .route => 0
  | .fin => 4
  | .speed => 0

/-- A write of a value over a shadow moves a release, fin or speed word toward its safe value or leaves it (R49). -/
def towardSafe : Bank → Nat → Nat → Bool
  | .release, _, v => decide (v = 0)
  | .route, _, _ => true
  | .fin, shadow, v => decide (shadow ≤ v)
  | .speed, shadow, v => decide (v ≤ shadow)

/-! ## Outputs and records -/

/-- ATTN: asserted while the published producer differs from C, off under RESET, in LOADING and in OFFLINE(NO-CONFIG) (R181). -/
def State.attn (s : State) : Bool :=
  !s.resetAsserted && s.ride.state != .loading && s.ride.state != .offline .noConfig &&
    s.report.published != s.report.consumer

/-- WAIT: asserted from a controller access's request until its response (R161). -/
def State.wait (s : State) : Bool := s.passage.access.isSome

/-- The ride states in which RIDE-PERMIT is asserted (R143). -/
def RideState.permits : RideState → Bool
  | .stopped | .running => true
  | .loading | .offline _ | .tripped => false

/-- A discovery is in progress (R120). -/
def State.discovering (s : State) : Bool := s.line.state == .discovering

/-- A segment holds a boat, or is the source or the destination of a reservation (R47). -/
def State.occupied (s : State) (g : Nat) : Bool :=
  !(s.queue g).isEmpty || !(s.reservationsInto g).isEmpty || !(s.reservationsFrom g).isEmpty

end Sys2Proof.Machine
end

