-- ==== Sys2Proof/Machine/Codes.lean ====
section
/-!
DEFINITION. The codes of 11.1 to 11.4: how named values stand in records and images.
-/

namespace Sys2Proof.Machine

def RideState.code : RideState → Nat
  | .loading => 0 | .offline _ => 1 | .stopped => 2 | .running => 3 | .tripped => 4

def OfflineReason.code : OfflineReason → Nat
  | .noConfig => 1 | .discovering => 2 | .lineFailed => 3

/-- The offline reason of a ride state, 0 for none. -/
def RideState.reasonCode : RideState → Nat
  | .offline r => r.code | .loading | .stopped | .running | .tripped => 0

def Cause.code : Cause → Nat
  | .estop => 1 | .controllerReset => 2 | .haltRequest => 3 | .drill => 4 | .lineDown => 5 | .nodeLost => 6
  | .eyeFault => 7 | .phantom => 8 | .unbidden => 9 | .overfill => 10 | .wrongWay => 11 | .burstPassage => 12
  | .early => 13 | .overdue => 14 | .brakeShort => 15 | .lineRestart => 16

def NodeKind.code : NodeKind → Nat
  | .general => 1 | .berth => 2 | .brake => 3

/-- The node kind a code names; any other code is kind none (R132). -/
def NodeKind.ofCode : Nat → Option NodeKind
  | 1 => some .general | 2 => some .berth | 3 => some .brake | _ => none

def NodeState.code : NodeState → Nat
  | .absent => 0 | .active => 1 | .missing => 2 | .lost => 3

def LineState.code : LineState → Nat
  | .down => 0 | .discovering => 1 | .up => 2 | .failed => 3

def LineCause.code : LineCause → Nat
  | .none => 0 | .silence => 1 | .stuckLow => 2 | .kindMismatch => 3 | .countMismatch => 4

def bankCode : Bank → Nat
  | .release => 0 | .route => 1 | .fin => 2 | .speed => 3

/-- The 16-bit word code: bank in bits 15–14, index in bits 13–0 (11.1). -/
def wordCode (w : WordRef) : Nat := bankCode w.bank * 16384 + w.index

def Reason.code : Reason → Nat
  | .partialWrite => 1 | .burst => 2 | .unbound => 3 | .malformed => 4 | .notRunning => 5 | .segmentFaulted => 6
  | .sourceEmpty => 7 | .boatDoubt => 8 | .boatKept => 9 | .holdFull => 10 | .routeBusy => 11 | .partOwned => 12
  | .windowVacant => 13 | .room => 16 | .pace => 17 | .crest => 18 | .floor => 19 | .speedLimit => 20
  | .reservationEnded => 21 | .wrongState => 32 | .boatInService => 33 | .noRoom => 34 | .boatAbsent => 35
  | .overCapacity => 36 | .drillActive => 37 | .sustainFailed => 38 | .lineNotUp => 39 | .nodeLost => 40
  | .eyeFault => 41 | .estopOpen => 42 | .controllerInReset => 43 | .configInvalid => 44 | .unknownKind => 45
  | .badArguments => 46

/-- A reason that may be absent: 0 (11.1 "absent content"). -/
def reasonCode (r : Option Reason) : Nat := (r.map Reason.code).getD 0

def BoatStatus.code : BoatStatus → Nat
  | .absent => 0 | .placed => 1 | .missing => 2

def classCode : Option WeightClass → Nat
  | none => 0 | some .light => 1 | some .medium => 2 | some .heavy => 3

def DetailKind.code : DetailKind → Nat
  | .none => 0 | .node => 1 | .edge => 2 | .segment => 3

def DrillPhase.code : DrillPhase → Nat
  | .withheld => 1 | .check => 2

/-- The sustain result in a node table entry's image; 11.1 gives it no codes, and these are the model's (log entry 10). -/
def SustainResult.code : SustainResult → Nat
  | .untested => 0 | .passed => 1 | .failed => 2

def PassageOutcome.code : PassageOutcome → Nat
  | .reserved => 0 | .wrongWay => 1 | .unbidden => 2 | .free => 3 | .overfill => 4

def VerdictKind.code : VerdictKind → Nat
  | .amend => 1 | .hold => 2 | .refuse => 3

def HoldOutcome.code : HoldOutcome → Nat
  | .performed => 0 | .dropped => 1 | .expired => 2 | .superseded => 3 | .purged => 4

def Occasion.code : Occasion → Nat
  | .endOfLoading => 1 | .lineUp => 2 | .lineFailed => 3 | .restartLine => 4 | .configTake => 5 | .startRide => 6
  | .stopRide => 7 | .trip => 8 | .resetTrip => 9

def ConfigNote.code : ConfigNote → Nat
  | .loaded => 1 | .pending => 2 | .pendingReplaced => 3 | .refused => 4 | .taken => 5 | .profileTaken => 6
  | .saved => 7 | .saveFailed => 8

def DrillOutcome.code : DrillOutcome → Nat
  | .done => 0 | .passed => 1 | .failed => 2 | .aborted => 3

def ConfigSource.code : ConfigSource → Nat
  | .none => 0 | .store => 1 | .commit => 2

def DirectiveKind.code : DirectiveKind → Nat
  | .startRide => 1 | .stopRide => 2 | .stopNow => 3 | .resetTrip => 4 | .drill => 5 | .addBoat => 6
  | .withdrawBoat => 7 | .reseat => 8 | .setPace => 9 | .setProfile => 10 | .commitConfig => 11 | .restartLine => 12

/-- The directive a code names (11.4). -/
def DirectiveKind.ofCode : Nat → Option DirectiveKind
  | 1 => some .startRide | 2 => some .stopRide | 3 => some .stopNow | 4 => some .resetTrip | 5 => some .drill
  | 6 => some .addBoat | 7 => some .withdrawBoat | 8 => some .reseat | 9 => some .setPace | 10 => some .setProfile
  | 11 => some .commitConfig | 12 => some .restartLine | _ => none

def ResultOutcome.code : ResultOutcome → Nat
  | .done => 1 | .refused => 2 | .busy => 3 | .invalid => 4 | .aborted => 5

/-- The save state's code and page (11.2). -/
def SaveState.code : SaveState → Nat
  | .idle => 0 | .saving .. => 1 | .saved => 2 | .failed _ => 3
def SaveState.page : SaveState → Nat
  | .idle | .saved => 0 | .saving p _ _ _ => p | .failed p => p

/-- Detail codes of results (11.4): 1 APPLIED, 2 BUFFERED, 3 TAKEN, 4 PENDING, 5 LINE-UP, 6 LINE-FAILED. -/
def detailApplied : Nat := 1
def detailBuffered : Nat := 2
def detailTaken : Nat := 3
def detailPending : Nat := 4
def detailLineUp : Nat := 5
def detailLineFailed : Nat := 6

end Sys2Proof.Machine
end

