-- ==== Sys2Proof/Machine/Operands.lean ====
section
/-!
DEFINITION. The operand forms: the word an access names and its class (09), windows and their targets (05), the trigger
word's fields (11.4), and the bytes of line frames with their CRC (07, 11.6).
-/

namespace Sys2Proof

/-! ## Accesses (R161, R163, R164, R165) -/

/-- The address of the word an access names: address bits 23 to 2 (R161). -/
def Access.word (a : Access) : Nat := a.addr.toNat / 4 * 4

/-- The words an access touches, each 4 bytes higher (R161). -/
def Access.words (a : Access) : List Nat := (List.range a.beats).map fun i => a.word + 4 * i

/-- All four byte lanes are enabled. -/
def Access.full (a : Access) : Bool := a.lanes == 15

/-- The last beat lies beyond the word at FFFFFCh (R167). -/
def Access.pastTop (a : Access) : Bool := decide (Config.lastWord < a.word + 4 * (a.beats - 1))

/-- The data of a single write. -/
def Access.value (a : Access) : Word := a.data.headD 0

/-- The beats of a write: each address with its data. -/
def Access.beatList (a : Access) : List (Nat × Word) := a.words.zip a.data

end Sys2Proof

namespace Sys2Proof.Machine

/-- A map entry covers an address (R163). -/
def MapEntry.covers (m : MapEntry) (a : Nat) : Bool := decide (m.base ≤ a ∧ a < m.base + m.size)

/-- The classes of words (R165). A roster word is told apart by its offset in its record: the STAY word stands at 10h. -/
inductive WordClass where
  | plain
  | guarded (word : WordRef)
  | rosterPart
  | stay (boat : Nat)
  | ring
  | status
  | consumer
  | trigger
  | directiveArea
  | resultArea
  | staging
  | window (index offset : Nat)
  deriving DecidableEq, Repr

/-- The service page's areas (R164). -/
def serviceClass (a : Nat) : WordClass :=
  if a < 0xFFF600 then (if a = Config.consumerAddr then .consumer else .status)
  else if a = Config.directiveBase then .trigger
  else if a < Config.resultBase then .directiveArea
  else if a < Config.stagingBase then .resultArea
  else .staging

/-- A word of the roster region: the STAY word of its record, or a part-owned word (R15, R190, 11.2). -/
def rosterClass (offset : Nat) : WordClass :=
  if offset % 32 = 16 then .stay (offset / 32 + 1) else .rosterPart

/-- The window that covers an address, and the offset in it (R100). -/
def RegionMap.windowAt (m : RegionMap) (a : Nat) : Option (Nat × Nat) :=
  (indices4.find? fun w => (m.windows[w]?).any (·.covers a)).map fun w => (w, a - ((m.windows[w]?).map (·.base)).getD 0)

/-- The bank that covers an address (R48, R163). -/
def RegionMap.bankAt (m : RegionMap) (a : Nat) : Option Bank :=
  [Bank.release, .route, .fin, .speed].find? fun b => (m.bank b).covers a

/-- The class of the word at an address under the map in effect (R163, R164, R165). -/
def State.classify (s : State) (a : Nat) : WordClass :=
  let m := s.config.map
  if Config.statusBase ≤ a then serviceClass a
  else match m.bankAt a with
    | some b => .guarded ⟨b, (a - (m.bank b).base) / 4⟩
    | none =>
      if m.roster.covers a then rosterClass (a - m.roster.base)
      else if m.ring.covers a then .ring
      else match m.windowAt a with
        | some (w, o) => .window w o
        | none => .plain

/-- The roster word that a window word stands for, none while the window is vacant (R101, R102). -/
def State.windowTarget (s : State) (w offset : Nat) : Option Nat :=
  match s.windowBoat w with
  | 0 => none
  | b + 1 => some (s.config.map.roster.base + 32 * b + offset)

/-- The word a single read returns: the word as memory holds it, through a window the roster word it stands for, and zero
from a vacant window (R52, R102, R165). -/
def State.readMapped (s : State) (a : Nat) : Word :=
  match s.classify a with
  | .window w o =>
    match s.windowTarget w o with
    | some t => s.memory.readWord t
    | none => 0
  | .plain | .guarded _ | .rosterPart | .stay _ | .ring | .status | .consumer | .trigger | .directiveArea
  | .resultArea | .staging => s.memory.readWord a

/-- Words that a performed write burst may touch; the others are guarded, part-owned, snooped or window words (R167). -/
def WordClass.burstable : WordClass → Bool
  | .plain | .directiveArea | .staging => true
  | .guarded _ | .rosterPart | .stay _ | .ring | .status | .consumer | .trigger | .resultArea | .window .. => false

/-- The row of spec/opcode_table.json that a granted access is performed by (log entry 8). -/
inductive AccessRow where
  | read | write | burst | window | release | route | fin | speed | stay | consumer | trigger
  deriving DecidableEq, Repr

/-- The row of a granted access (R165, R167, R170, R173). In LOADING an access is refused before it is classified. -/
def State.rowOf (s : State) (a : Access) : AccessRow :=
  if s.ride.state = .loading then (if !a.write then .read else if a.beats = 1 then .write else .burst)
  else if !a.write then
    (match s.classify a.word with
     | .window .. => if a.beats = 1 then .window else .read
     | .plain | .guarded _ | .rosterPart | .stay _ | .ring | .status | .consumer | .trigger | .directiveArea
     | .resultArea | .staging => .read)
  else if a.beats ≠ 1 then .burst
  else match s.classify a.word with
    | .guarded ⟨.release, _⟩ => .release
    | .guarded ⟨.route, _⟩ => .route
    | .guarded ⟨.fin, _⟩ => .fin
    | .guarded ⟨.speed, _⟩ => .speed
    | .window .. => .window
    | .stay _ => if a.full then .stay else .write
    | .consumer => if a.full then .consumer else .write
    | .trigger => if a.full then .trigger else .write
    | .plain | .rosterPart | .ring | .status | .directiveArea | .resultArea | .staging => .write

/-! ## The trigger word (10.1, 11.4, R191) -/

def triggerTag (w : Word) : BitVec 16 := w.extractLsb' 0 16
def triggerKind (w : Word) : Nat := (w.extractLsb' 16 8).toNat
def triggerCount (w : Word) : Nat := (w.extractLsb' 24 4).toNat

/-! ## CRCs (R122, R183) -/

/-- Apply a function eight times: once for each bit of a byte. -/
def eightTimes (f : Nat → Nat) (n : Nat) : Nat := f (f (f (f (f (f (f (f n)))))))

/-- One bit of the CRC-8: polynomial 07h, most significant bit first (R122). -/
def crc8Bit (c : Nat) : Nat := if 128 ≤ c then ((2 * c) ^^^ 0x107) else 2 * c

/-- The CRC-8 over bytes: initial value 00h, no reflection, no final XOR (R122). -/
def crc8 (bs : List Byte) : Nat := bs.foldl (fun c b => eightTimes crc8Bit (c ^^^ b.toNat)) 0

/-- One bit of the CRC-16: polynomial 1021h, most significant bit first (R183 check 4). -/
def crc16Bit (c : Nat) : Nat := if 32768 ≤ c then ((2 * c) ^^^ 0x11021) else 2 * c

/-- The CRC-16 over bytes: initial value FFFFh, no reflection, no final XOR (R183 check 4). -/
def crc16 (bs : List Byte) : Nat := bs.foldl (fun c b => eightTimes crc16Bit (c ^^^ (b.toNat * 256))) 0xFFFF

/-! ## Line frames (11.6) -/

/-- A frame's bytes with its CRC-8 after them. -/
def withCrc8 (bs : List Byte) : List Byte := bs ++ le1 (crc8 bs)

/-- The bytes of a frame end with the CRC-8 of the bytes before (R122). -/
def crc8Ok (frame : List Byte) : Bool := frame.getLast? == some (byteOf (crc8 frame.dropLast) 0)

/-- Byte `i` of a frame as a number. -/
def frameByte (frame : List Byte) (i : Nat) : Nat := (frame.getD i 0).toNat

/-- The head frame (R122, 11.6): 5Ah, the round number, the flags, the CRC. -/
def headFrame (round : Nat) (trip unsustain : Bool) : List Byte :=
  withCrc8 [0x5A, byteOf round 0, byteOf (trip.toNat + 2 * unsustain.toNat) 0]

/-- The enumeration query (R131, 11.6): 69h, the position, the CRC. -/
def queryFrame (position : Nat) : List Byte := withCrc8 [0x69, byteOf position 0]

/-- What a node report carries (R123). -/
structure NodeReport where
  position  : Nat
  kind      : Nat
  eyes      : List EyeState
  counters  : List Nat
  tag       : Nat
  fin       : FinFeedback
  estopOpen : Bool
  sustained : Bool
  fresh     : Bool
  slow      : Nat
  deriving DecidableEq, Repr

/-- The eye state of a code: 3 is taken as FAULT (R193). -/
def eyeOfCode : Nat → EyeState
  | 0 => .clear | 1 => .blocked | _ => .fault

/-- The fin feedback of a reported stage: 5, 6 and 7 are NO-READING (R111, R193). -/
def finOfCode (n : Nat) : FinFeedback := if n ≤ 4 then .stage n else .noReading

/-- The fields of a node report's ten bytes (11.6); input 0 stands in the lowest bits. Bit 5 of the position and kind byte
carries no field and is not read (log entry 43). -/
def parseReport (f : List Byte) : NodeReport :=
  let b := frameByte f
  { position := b 1 % 32
    kind := b 1 / 64
    eyes := [eyeOfCode (b 2 % 4), eyeOfCode (b 2 / 4 % 4), eyeOfCode (b 2 / 16 % 4), eyeOfCode (b 2 / 64)]
    counters := [b 3 % 16, b 3 / 16, b 4 % 16, b 4 / 16]
    tag := b 5
    fin := finOfCode (b 6 % 8)
    estopOpen := hasBit (b 6) 3
    sustained := hasBit (b 6) 4
    fresh := hasBit (b 6) 5
    slow := b 7 + 256 * b 8 }

/-- A frame is a valid report for the slot of a position (R123, R193): its code, its length, its CRC, its position and its
kind, which equals the discovered kind of the position. -/
def State.validReport (s : State) (p : Nat) (f : List Byte) : Bool :=
  f.length == 10 && f.getD 0 0 == 0x3C && crc8Ok f && (parseReport f).position == p &&
    (s.node p).discovered.any fun k => k.code == (parseReport f).kind

/-- A slot is a miss when its window holds no frame, a frame that is not valid, or more than one frame (R123). -/
def State.slotMissed (s : State) (p : Nat) : List (List Byte) → Bool
  | [f] => !s.validReport p f
  | [] => true
  | _ :: _ :: _ => true

/-- An enumeration answer is taken when its code, its length and its CRC are right (R132, R193, 11.6). -/
def validAnswer (f : List Byte) : Bool := f.length == 7 && f.getD 0 0 == 0x96 && crc8Ok f

/-- The kind and the serial of an enumeration answer (11.6). -/
def answerKind (f : List Byte) : Option NodeKind := NodeKind.ofCode (frameByte f 1)
def answerSerial (f : List Byte) : Word :=
  f.getD 5 0 ++ f.getD 4 0 ++ f.getD 3 0 ++ f.getD 2 0

end Sys2Proof.Machine
end

