-- ==== Sys2Proof/Machine/Images.lean ====
section
/-!
DEFINITION. The bytes of report records and image items (11.2, 11.3, 11.4), and the end of every event: a request for
each image item whose content the event changed (R172, R178). Where 11.2 lists a block's fields without offsets, they
stand in its order, naturally aligned (log entry 10).
-/

namespace Sys2Proof.Machine

/-! ## Encodings shared by records and items -/

/-- Pieces one after the other. -/
def cat (pieces : List (List Byte)) : List Byte := pieces.flatten

/-- A yes or no as a number. -/
def flag (b : Bool) : Nat := if b then 1 else 0

/-- A segment, edge or node position field: FFh for none (11 "holds nothing"). -/
def orFF (n : Option Nat) : Nat := n.getD 255

/-- A ride state with its reason in bits 7 to 4 (11.3 STATE). -/
def stateCode (r : RideState) : Nat := r.code + 16 * r.reasonCode

/-- A cause set as a word with bit `n` for cause `n` (11.2). -/
def causeBits (cs : List Cause) : Nat := bitSet (cs.map Cause.code)

/-! ## Report records (11.3) -/

/-- The kind code of a record. -/
def Report.kind : Report → Nat
  | .passage .. => 1 | .verdict _ => 2 | .holdEnd .. => 3 | .lapse .. => 4 | .identity .. => 5 | .segmentFault .. => 6
  | .trip .. => 7 | .state .. => 8 | .node .. => 9 | .line .. => 10 | .floorLift .. => 11 | .stallStop .. => 12
  | .config .. => 13 | .drill .. => 14

/-- Bytes 1 to 3 of word 0 of a record. -/
def Report.bytes : Report → Nat × Nat × Nat
  | .passage b e o early _ _ => (b, e, o.code + 128 * flag early)
  | .verdict v => (v.kind.code, v.reason.code, v.boat)
  | .holdEnd h o r b => (o.code + 128 * flag h.amended, reasonCode r, b)
  | .lapse b e _ => (b, e, 0)
  | .identity b e t => (b, e, t)
  | .segmentFault g c => (g, c.code, 0)
  | .trip c k _ additional _ => (c.code, k.code, flag additional)
  | .state p n o => (stateCode p, stateCode n, o.code)
  | .node p old new _ _ => (p, old.code, new.code)
  | .line n c d => (n.code, c.code, d)
  | .floorLift r f v => (r, f, v)
  | .stallStop c b _ => (c, b, 0)
  | .config n check item _ _ => (n.code, check, item)
  | .drill sustain o count _ => (flag sustain, o.code, count)

/-- Word 2 of a record. -/
def Report.word2 : Report → Nat
  | .passage _ _ _ _ x y => x + 256 * y
  | .verdict v => v.written.toNat
  | .holdEnd h _ _ _ => h.arrival
  | .lapse _ _ d => d
  | .trip _ _ d _ _ => d
  | .node _ _ _ m e => m + 256 * flag e
  | .stallStop _ _ v => v
  | .config _ _ _ crc _ => crc
  | .drill _ _ _ ps => bitSet (ps.map (· - 1))
  | .identity .. | .segmentFault .. | .state .. | .line .. | .floorLift .. => 0

/-- Word 3 of a record. -/
def Report.word3 : Report → Nat
  | .verdict v => wordCode v.word + 65536 * v.stored.getD 0
  | .holdEnd h _ _ _ => wordCode h.word + 65536 * h.value
  | .trip _ _ _ _ cs => causeBits cs
  | .config _ _ _ _ x => x
  | .passage .. | .lapse .. | .identity .. | .segmentFault .. | .state .. | .node .. | .line .. | .floorLift ..
  | .stallStop .. | .drill .. => 0

/-- The 16 bytes of a record: the gap mark stands in bit 7 of the kind byte (11.3). -/
def recordBytes (gap : Bool) (time : Nat) (r : Report) : List Byte :=
  let (b1, b2, b3) := r.bytes
  cat [le1 (r.kind + 128 * flag gap), le1 b1, le1 b2, le1 b3, le4 time, le4 r.word2, le4 r.word3]

/-! ## Blocks of the status page (11.2) -/

/-- The drill phase: 0 none, 1 WITHHELD, 2 CHECK. -/
def drillCode (d : Option Drill) : Nat := (d.map fun x => x.phase.code).getD 0

def rideBytes (u : RideUnit) : List Byte :=
  cat [le1 u.state.code, le1 u.state.reasonCode, le1 ((u.trip.first.map Cause.code).getD 0),
    le1 u.trip.detailKind.code, le1 u.trip.detail, padTo 3 [], le4 u.trip.time, le4 (causeBits u.trip.causes),
    le2 u.trip.additional, le1 (drillCode u.drill), le1 (flag u.senseLevel)]

def configBytes (u : StoreLoader) : List Byte :=
  cat [le2 u.activeCrc, le1 u.source.code, le1 (flag u.pendingImage.isSome),
    le2 ((u.pendingImage.map (·.crc)).getD 0), le1 u.save.code, le1 u.save.page, le1 u.failure.1, le1 u.failure.2]

def passageBytes (u : PassageUnit) : List Byte :=
  match u.lastRefusal with
  | none => le2 u.refusals
  | some r =>
    cat [le2 u.refusals, le2 0, le4 r.time, le4 r.addr, le1 (flag r.write), le1 r.beats, le1 r.reason.code]

def lineBytes (u : LineController) : List Byte :=
  cat [le1 u.state.code, le1 u.round, le1 u.silence]

def lastVerdictBytes (v : Option LastVerdict) : List Byte :=
  match v with
  | none => []
  | some v =>
    cat [le1 2, le1 v.kind.code, le1 v.reason.code, le1 v.boat, le4 v.time, le4 v.written.toNat,
      le2 (wordCode v.word), le2 0, le4 (v.stored.getD 0)]

def pacerBytes (p : Option Pacer) : List Byte :=
  match p with
  | none => []
  | some p =>
    cat [le2 p.interval, le2 p.buffer, le2 p.runLoad, le2 0, le4 (p.lastLaunch.getD 0), le1 (flag p.stage1),
      le1 (flag p.stage2)]

/-- The shadow of a word with the encoding of the block it stands in for unbound or unknown (11.2). -/
def State.shadowOr (s : State) (w : WordRef) (absent : Nat) : Nat := (s.shadow w).getD absent

def shadowBytes (s : State) : List Byte :=
  cat [((List.range 32).flatMap fun i => le1 (s.shadowOr ⟨.release, i⟩ 255)),
    (indices4.flatMap fun i => le1 (s.shadowOr ⟨.route, i⟩ 255)),
    (indices4.flatMap fun i => le1 (s.shadowOr ⟨.fin, i⟩ 255)),
    (indices4.flatMap fun i => le2 (s.shadowOr ⟨.speed, i⟩ 65535))]

def heldBytes (h : HeldEntry) : List Byte :=
  cat [le2 (wordCode h.word), le2 h.value, le1 (flag h.amended), le1 h.reason.code, le2 0, le4 h.arrival,
    le4 h.expiry]

/-- The hold queue image: the word code is FFFFh past the last entry (11.2). -/
def holdBytes (q : HoldQueue) : List Byte :=
  (List.range Config.holdDepth).flatMap fun i =>
    match q.entries[i]? with
    | some h => heldBytes h
    | none => padTo 16 (le2 65535)

/-- A berth block; its boat is the window's boat, and a berth without a present window has none (R87, R100). -/
def berthBytes (s : State) (i : Nat) : List Byte :=
  match s.berthLive i with
  | none => []
  | some b =>
    let present := (s.config.map.windows[i]?).any fun m => m.size != 0
    cat [le2 b.lastWeight, le1 b.age, le1 (flag b.stale), le1 (if present then s.windowBoat i else 0)]

/-- The brake block gives no code for a feedback of none, nor for an unknown shadow: absent content is 0 (11.1, R190). -/
def FinFeedback.code : FinFeedback → Nat
  | .stage n => n | .noReading => 7 | .none => 0

/-- The fin-lag timer's state in the brake block; no table of 11 gives it codes, and these are the model's (log entry 10). -/
def FinTimer.code : FinTimer → Nat
  | .idle => 0 | .running _ => 1 | .expired => 2

def FinTimer.start : FinTimer → Nat
  | .running t => t | .idle | .expired => 0

def runoutBytes (s : State) (r : Nat) : List Byte :=
  match s.runout r with
  | none => []
  | some x =>
    cat [le1 x.floor, le1 (s.shadowOr ⟨.fin, r⟩ 0), le1 x.feedback.code, le1 x.timer.code, le4 x.timer.start]

def conveyorBytes (s : State) (c : Nat) : List Byte :=
  match s.conveyor c with
  | none => []
  | some x =>
    cat [le2 (s.shadowOr ⟨.speed, c⟩ 0), le2 (s.maxSpeed c), le1 (flag x.stalled)]

def profileBytes (p : List ProfileStep) : List Byte :=
  cat [le1 p.length, padTo 3 [], padTo 16 (p.flatMap fun x => le4 (x.time + 65536 * x.stage))]

def profilesBytes (p : Profiles) : List Byte :=
  cat [profileBytes p.light, profileBytes p.medium, profileBytes p.heavy]

def brakeBytes (s : State) : List Byte :=
  cat [(indices4.flatMap fun r => padTo 8 (runoutBytes s r)),
    (indices4.flatMap fun c => padTo 8 (conveyorBytes s c)), profilesBytes s.brake.active,
    profilesBytes s.brake.buffer, le1 (flag s.brake.pending)]

def kindCode (k : Option NodeKind) : Nat := (k.map NodeKind.code).getD 0

def nodeBytes (n : NodeEntry) : List Byte :=
  cat [le1 (kindCode n.expected), le1 (kindCode n.discovered), le2 0, le4 n.serial.toNat, le1 n.state.code,
    le1 n.misses, le1 (flag n.estopOpen), le1 (flag n.sustained), le1 n.result.code]

/-- A segment image; a segment that is not configured is written as zero words (R178). -/
def segmentBytes (s : State) (g : Nat) : List Byte :=
  if g < s.config.segments.length then
    let q := s.queue g
    cat [le1 (flag (s.faulted g)), le1 (((s.segment g).fault.map Cause.code).getD 0), le1 (s.load g), le1 q.length,
      padTo 8 (q.flatMap le1), le1 (s.reservationsInto g).length]
  else []

def reservationBytes (r : Reservation) : List Byte :=
  cat [le1 r.boat, le1 r.edge, le2 0, le4 r.deadline]

/-- The reservation list image: past the last entry the boat is 0, and the edge FFh as of a field that holds nothing (11.1,
11.2, R178). -/
def reservationsBytes (rs : List Reservation) : List Byte :=
  (List.range Config.reservationRows).flatMap fun i =>
    match rs[i]? with
    | some r => reservationBytes r
    | none => padTo 8 (cat [le1 0, le1 (orFF none)])

/-- The first 16 bytes of a boat's roster record; the bytes after the STAY word carry no field (11.2, R190). -/
def rosterBytes (b : Nat) (r : BoatRecord) : List Byte :=
  cat [le1 b, le1 r.status.code, le1 (orFF r.segment), le1 r.position, le4 r.arrival, le1 (classCode r.weightClass),
    le1 (flag r.weighStale + 2 * flag r.identityDoubt), le2 r.lastWeight, le2 r.launchCount, le1 (orFF r.lastEdge), le1 0]

/-- The 32 words of the result area: the result record, and zero while there is none (11.4, R174). -/
def resultBytes (r : Option ResultRecord) : List Byte :=
  match r with
  | none => []
  | some r =>
    cat [le2 r.tag.toNat, le1 r.kind, le1 r.outcome.code, le2 (reasonCode r.reason), le2 r.count,
      padTo 64 (r.detail.flatMap le4)]

/-! ## Image items (R172, R178) -/

/-- The address and the size of an item outside the roster (11.2). -/
def itemPlace : ImageItem → Nat × Nat
  | .ride => (0xFFF000, 32)
  | .config => (0xFFF020, 32)
  | .producer => (0xFFF040, 4)
  | .consumer => (0xFFF044, 4)
  | .passage => (0xFFF050, 16)
  | .line => (0xFFF060, 16)
  | .lastVerdict => (0xFFF070, 32)
  | .pacer => (0xFFF090, 32)
  | .shadows => (0xFFF0B0, 48)
  | .holdQueue => (0xFFF0E0, 128)
  | .berth i => (0xFFF160 + 16 * i, 16)
  | .brake => (0xFFF1A0, 256)
  | .node p => (0xFFF2A0 + 16 * (p - 1), 16)
  | .segment g => (0xFFF3A0 + 16 * g, 16)
  | .reservations => (0xFFF520, 192)
  | .result => (Config.resultBase, 128)
  | .spare => (0xFFF048, 8)
  | .roster b => (32 * (b - 1), 16)

/-- The bytes of an item that carry fields. With no configuration every block but the ride, passage and configuration
blocks is zero (R178). -/
def itemBytes (s : State) : ImageItem → List Byte
  | .ride => rideBytes s.ride
  | .passage => passageBytes s.passage
  | .config => configBytes s.loader
  | .result => resultBytes s.directive.result
  | .producer => if s.configured then le4 s.report.published else []
  | .consumer => []
  | .spare => []
  | .line => if s.configured then lineBytes s.line else []
  | .lastVerdict => if s.configured then lastVerdictBytes s.verdict.last else []
  | .pacer => if s.configured then pacerBytes s.berth.pacer else []
  | .shadows => if s.configured then shadowBytes s else []
  | .holdQueue => if s.configured then holdBytes s.hold else []
  | .berth i => if s.configured then berthBytes s i else []
  | .brake => if s.configured then brakeBytes s else []
  | .node p => if s.configured then nodeBytes (s.node p) else []
  | .segment g => if s.configured then segmentBytes s g else []
  | .reservations => if s.configured then reservationsBytes s.tracker.reservations else []
  | .roster b => if s.configured then rosterBytes b (s.boat b) else []

/-- Write an item whole, every byte that carries no field zero (R190). A roster record's STAY word is left as it is,
unless the request clears it (R15, R16): a take's write clears it whatever the controller wrote there since the take, and
leaves the copy as that write set it (log entry 44). The spare bytes of the status page stand in two places. -/
def writeItem (s : State) (i : ImageItem) (clearStay : Bool) : Memory :=
  let (a, n) := itemPlace i
  match i with
  | .roster _ =>
    let base := s.config.map.roster.base + a
    let m := Memory.writeBytes s.memory base (padTo n (itemBytes s i))
    let m := Memory.writeBytes m (base + 20) (padTo 12 [])
    if clearStay then Memory.writeBytes m (base + 16) (padTo 4 []) else m
  | .spare => Memory.writeBytes (Memory.writeBytes s.memory a (padTo n [])) 0xFFF5E0 (padTo 32 [])
  | .segment _ | .reservations | .lastVerdict | .holdQueue | .berth _ | .pacer | .brake | .shadows | .ride | .line
  | .node _ | .passage | .config | .result | .producer | .consumer =>
    Memory.writeBytes s.memory a (padTo n (itemBytes s i))

/-- The fields of the brake block that may be absent, told apart from a stage or a speed of 0, as which they are written. -/
def absentBrakeFields (s : State) : List Byte :=
  indices4.flatMap fun i =>
    cat [le1 (flag ((s.runout i).any (·.feedback == .none))), le1 (s.shadowOr ⟨.fin, i⟩ 255),
      le2 (s.shadowOr ⟨.speed, i⟩ 65535)]

/-- What of an item calls for a rewrite when it changes: the line block is rewritten when the line state changes (R142), a
berth block when its age alone changes is not (R87), the brake block also where a field that was absent becomes 0 or the
other way about (R119), every other item when its bytes change. -/
def itemKey (s : State) : ImageItem → List Byte
  | .line => le1 s.line.state.code
  | .berth i => cat [(itemBytes s (.berth i)).take 2, (itemBytes s (.berth i)).drop 3]
  | .segment g => itemBytes s (.segment g)
  | .reservations => itemBytes s .reservations
  | .lastVerdict => itemBytes s .lastVerdict
  | .holdQueue => itemBytes s .holdQueue
  | .pacer => itemBytes s .pacer
  | .brake => cat [itemBytes s .brake, absentBrakeFields s]
  | .shadows => itemBytes s .shadows
  | .ride => itemBytes s .ride
  | .node p => itemBytes s (.node p)
  | .passage => itemBytes s .passage
  | .config => itemBytes s .config
  | .result => itemBytes s .result
  | .roster b => itemBytes s (.roster b)
  | .producer | .consumer | .spare => []

/-- The boats, 1 to 32, and the node positions, 1 to 16. -/
def boatNumbers : List Nat := (List.range Config.boatCount).map (· + 1)
def nodePositions : List Nat := (List.range Config.positionCount).map (· + 1)

/-- The items that a change calls for, in the order in which they are asked for (log entry 11). -/
def askedItems : List ImageItem :=
  [boatNumbers.map .roster, (List.range Config.segmentLimit).map .segment, [.reservations, .lastVerdict, .holdQueue],
    indices4.map .berth, [.pacer, .brake, .shadows, .ride, .line], nodePositions.map .node,
    [.passage, .config, .result]].flatten

/-- The items of the whole status page, for LOADING and a take (R178, R184, R187). The bytes outside the spec's items are one
request of their own, behind the others (R190, log entry 52). -/
def pageItems : List ImageItem :=
  [(List.range Config.segmentLimit).map .segment, [.reservations, .lastVerdict, .holdQueue], indices4.map .berth,
    [.pacer, .brake, .shadows, .ride, .line], nodePositions.map .node,
    [.passage, .config, .producer, .consumer, .spare]].flatten

/-- The items whose content a change from `s0` altered. What a rule has rewritten whether or not its bytes differ is asked
for where it changes (log entry 11). -/
def changedItems (s0 s1 : State) : List ImageItem := askedItems.filter fun i => itemKey s0 i != itemKey s1 i

/-- The Report Writer's part of a change: a request for each image item whose content it changed (R6, R172). -/
def askChanged (s0 s1 : State) : State := eachOf (fun i s => s.askImage i false) (changedItems s0 s1) s1

/-- The end of an event: a request for each image item it changed for which none waits yet, and the UPKEEP wait count at 0
when UPKEEP is empty (R171, R172). Emptiness is read here alone: a class that the event emptied and filled again keeps its
count (log entry 40). -/
def finish (s0 s1 : State) : State :=
  let s := askChanged s0 s1
  if s.passage.upkeep.isEmpty then s.setPassage { s.passage with upkeepWait := 0 } else s

/-- An event: it is taken if RESET is not asserted and it can come about, and otherwise nothing happens (log entry 2). -/
def event (s : State) (enabled : Bool) (effect : State → State) : Host.Outcome State Fault Refusal :=
  if !s.resetAsserted && enabled then .next (finish s (effect s)) else .next s

end Sys2Proof.Machine
end

