-- ==== Sys2Proof/Machine/Verdict.lean ====
section
/-!
DEFINITION. The verdicts on release, route, fin and speed words after the form checks (03, R57 to R63), and the form
checks (R55). A verdict is judged from the state alone; what it brings about is in Hold.lean and ControllerPort.lean.
-/

namespace Sys2Proof.Machine

/-- A verdict (03). A PASS may create a reservation; a HOLD carries the value to store and whether it is amended. -/
inductive Judgement where
  | pass (reserve : Option Reservation)
  | amend (value : Nat) (reason : Reason)
  | hold (value : Nat) (amended : Bool) (reason : Reason)
  | refuse (reason : Reason)
  deriving DecidableEq, Repr

/-- The ride state is RUNNING. -/
def State.running (s : State) : Bool := s.ride.state == .running

/-- A boat holds a reservation (R11). -/
def State.holdsReservation (s : State) (b : Nat) : Bool := s.tracker.reservations.any (·.boat == b)

/-- R58: an OPEN that has passed the checks of R57, judged against its destination. A split whose route shadow is unknown
has no destination; its OPEN is refused, and no verdict is taken then (R50). -/
def State.judgeDestination (s : State) (g : Nat) : Judgement :=
  match s.routedExit g with
  | none => .refuse .routeBusy
  | some e =>
    let y := ((s.config.edges[e]?).map (·.destination)).getD 0
    if s.faulted y then .refuse .segmentFaulted
    else if s.holdsReservation (s.head g) then .pass none
    else if s.atCapacity y then .hold 1 false .room
    else if s.config.edgeLaunch e && !s.pacerPermits then .hold 1 false .pace
    else .pass (some ⟨s.head g, e, s.clock + (s.config.segment g).releaseWindow⟩)

/-- R57: a release write; segment `g`'s gate is release word `g`. -/
def State.judgeRelease (s : State) (g value : Nat) : Judgement :=
  if value = 0 then .pass none
  else if !s.running then .refuse .notRunning
  else if s.shadow ⟨.release, g⟩ = some 1 then .pass none
  else if s.faulted g then .refuse .segmentFaulted
  else if (s.queue g).isEmpty then .refuse .sourceEmpty
  else if (s.boat (s.head g)).identityDoubt then .refuse .boatDoubt
  else if (s.config.exits g).any s.config.edgeLaunch && (s.boat (s.head g)).stay then .refuse .boatKept
  else s.judgeDestination g

/-- The splits that carry a route word index. -/
def FlumeConfig.splits (c : FlumeConfig) (i : Nat) : List Nat := c.segmentIds.filter fun g => (c.segment g).route == some i

/-- A diverter may not turn: a reservation leaves the split, or the eye of a branch edge is BLOCKED (R60 step 2). Where several
splits carry the index, each is asked (log entry 39). -/
def State.routeBusy (s : State) (i : Nat) : Bool :=
  (s.config.splits i).any fun g =>
    !(s.reservationsFrom g).isEmpty || (s.config.exits g).any fun e => (s.eye e).state == .blocked

/-- R60: a route write. -/
def State.judgeRoute (s : State) (i value : Nat) : Judgement :=
  if s.shadow ⟨.route, i⟩ = some value then .pass none
  else if s.routeBusy i then .refuse .routeBusy
  else .pass none

/-- R62: a fin write. -/
def State.judgeFin (s : State) (r value : Nat) : Judgement :=
  if (s.shadow ⟨.fin, r⟩).getD 4 ≤ value then .pass none
  else if !s.running then .refuse .notRunning
  else if s.brakeFloor r ≤ value then .pass none
  else .amend (s.brakeFloor r) .floor

/-- The LIFT or the CREST of a conveyor is FAULTED (R63 step 3). -/
def State.conveyorFaulted (s : State) (c : Nat) : Bool :=
  (s.config.liftSegment c).any s.faulted || (s.config.crestSegment c).any s.faulted

/-- R63 from step 4 on: the value limited to the maximum speed, held while the stall condition holds. -/
def State.judgeRaise (s : State) (c value : Nat) : Judgement :=
  let limited := min value (s.maxSpeed c)
  let amended := decide (s.maxSpeed c < value)
  if amended && decide (limited ≤ (s.shadow ⟨.speed, c⟩).getD 0) then .amend limited .speedLimit
  else if s.stallCondition c then .hold limited amended .crest
  else if amended then .amend limited .speedLimit
  else .pass none

/-- R63: a speed write. -/
def State.judgeSpeed (s : State) (c value : Nat) : Judgement :=
  if value ≤ (s.shadow ⟨.speed, c⟩).getD 0 then .pass none
  else if !s.running then .refuse .notRunning
  else if s.conveyorFaulted c then .refuse .segmentFaulted
  else s.judgeRaise c value

/-- The verdict on a value for a bound word, from the first step after the form checks (R57, R60, R62, R63, R65). -/
def State.judge (s : State) (w : WordRef) (value : Nat) : Judgement :=
  match w.bank with
  | .release => s.judgeRelease w.index value
  | .route => s.judgeRoute w.index value
  | .fin => s.judgeFin w.index value
  | .speed => s.judgeSpeed w.index value

/-- The boat of a verdict: for a release write that reached step 4 of R57 the head boat of the source, 0 otherwise (R66). -/
def State.judgedBoat (s : State) (w : WordRef) (value : Nat) : Nat :=
  match w.bank with
  | .release =>
    if value ≠ 0 && s.running && s.shadow w != some 1 && !s.faulted w.index then s.head w.index else 0
  | .route | .fin | .speed => 0

/-- R55: the form checks on a write to a guarded word; the first that fails names the reason. -/
def State.formCheck (s : State) (w : WordRef) (a : Access) (value : Word) : Option Reason :=
  if !a.full then some .partialWrite
  else if a.beats ≠ 1 then some .burst
  else if !s.config.bound w then some .unbound
  else if !inRange w.bank value.toNat then some .malformed
  else none

end Sys2Proof.Machine
end

