-- ==== Sys2Proof/Machine/Brake.lean ====
section
/-!
DEFINITION. What the Brake Unit and the Berth Unit's pacer do when the ride model, a shadow or the clock changes: floors
and lifts (R106 to R108), profile takes (R110), fin-lag timers (R112), stall conditions and stops (R115, R116), run load
and pacer stages (R94 to R97).
-/

namespace Sys2Proof.Machine

/-! ## Floors and lifts -/

/-- R108: a lift is decided when the floor stands above the known fin shadow and above the waiting lift. -/
def liftFin (r floor : Nat) (s : State) : State :=
  match s.shadow ⟨.fin, r⟩ with
  | none => s
  | some v =>
    if v < floor && ((s.runout r).bind (·.waitingLift)).all (decide <| · < floor) then
      ((s.decideMotion ⟨.fin, r⟩ floor (.floorLift r)).setRunout r fun x => { x with waitingLift := some floor }).callReport
        (.floorLift r floor v)
    else s

/-- The next step times of the boats in a segment, from the active profiles and the ride clock (R107). -/
def refreshSteps (g : Nat) (s : State) : State :=
  eachOf (fun b s => s.setBoat b fun x => { x with nextStep := s.firstStepAfter b s.clock }) (s.queue g) s

/-- R107: recompute the floor of a run-out; one that keeps its value changes nothing, one that changes may lift. -/
def recomputeFloor (r : Nat) (s : State) : State :=
  match s.config.runoutSegment r with
  | none => s
  | some g =>
    let s := refreshSteps g s
    if s.floorOf r = s.brakeFloor r then s
    else liftFin r (s.floorOf r) (s.setRunout r fun x => { x with floor := s.floorOf r })

/-- The boats of a segment with their arrival times. -/
def State.occupancy (s : State) (g : Nat) : List (Nat × Nat) := (s.queue g).map fun b => (b, (s.boat b).arrival)

/-- A segment is the run-out of an index, or feeds it (R104). -/
def FlumeConfig.touchesRunout (c : FlumeConfig) (g r : Nat) : Bool :=
  (c.runoutSegment r).any fun x => x == g || (c.segment x).feed == some g

/-- R19, R107: a RESEAT of a segment is a change of it even where boats and arrival times stand as they stood: the floors of
the run-outs that it is or feeds are recomputed, and with them the next step times of their boats. -/
def reseatWork (g : Nat) (s : State) : State :=
  eachOf (fun r s => if s.config.touchesRunout g r then recomputeFloor r s else s) indices4 s

/-- A change touched the boats or the reservations that a run-out's floor is computed from (R107). -/
def runoutTouched (s0 s1 : State) (r : Nat) : Bool :=
  match s1.config.runoutSegment r with
  | none => false
  | some g =>
    s0.occupancy g != s1.occupancy g || s0.reservationsInto g != s1.reservationsInto g ||
      (s1.config.segment g).feed.any fun f => s0.occupancy f != s1.occupancy f

/-! ## Profile takes (R110) -/

/-- A profile take: the buffers become the active profiles, every floor is recomputed, CONFIG PROFILE-TAKEN is written, and
the brake block is rewritten even where the profiles stay what they were. -/
def takeProfiles (s : State) : State :=
  let s := s.setBrake { s.brake with active := s.brake.buffer, pending := false }
  ((eachOf recomputeFloor indices4 s).callReport (.config .profileTaken 0 0 0 0)).askImage .brake false

/-! ## Fin-lag timers (R112) -/

/-- The fin-lag timer acts on a change of the feedback or of the fin shadow. -/
def updateFinTimer (r : Nat) (s : State) : State :=
  s.setRunout r fun x => { x with timer := x.timer.next s.clock (finStanding x.feedback (s.shadow ⟨.fin, r⟩)) }

/-- The fin feedback of a run-out is set; a change is handed to its timer (R111). -/
def setFeedback (r : Nat) (f : FinFeedback) (s : State) : State :=
  if (s.runout r).any (·.feedback != f) then updateFinTimer r (s.setRunout r fun x => { x with feedback := f }) else s

/-! ## Stall conditions and stops (R115, R116) -/

/-- A stall stop is decided when the speed shadow is above 0 and no stop of the conveyor waits (R116). Its report names the
CREST's head boat, also where a FAULTED CREST holds more than one (log entry 45). -/
def stallStop (c : Nat) (s : State) : State :=
  match s.shadow ⟨.speed, c⟩ with
  | none => s
  | some v =>
    if 0 < v && !(s.conveyor c).any (·.stopWaiting) then
      ((s.decideMotion ⟨.speed, c⟩ 0 (.stallStop c)).setConveyor c fun x => { x with stopWaiting := true }).callReport
        (.stallStop c (((s.config.crestSegment c).map s.head).getD 0) v)
    else s

/-- R115: recompute a conveyor's stall condition; where it arises, a stop may be decided (R116). -/
def recomputeStall (c : Nat) (s : State) : State :=
  if (s.conveyor c).isNone || s.stallCondition c == s.stalled c then s
  else
    let now := s.stallCondition c
    let s := s.setConveyor c fun x => { x with stalled := now }
    if now then stallStop c s else s

/-- The speed shadow changed: above 0 while the stall condition holds, a stop is decided (R116). -/
def speedShadowChanged (c : Nat) (s : State) : State := if s.stalled c then stallStop c s else s

/-! ## The Brake Unit's part of a hand-on (R6, R51) -/

/-- A boat arrived or left, a reservation began or ended, a condition changed, or a RESEAT restarted arrival times (R6). -/
def modelChanged (s0 s1 : State) : Bool :=
  s0.tracker.segments != s1.tracker.segments || s0.tracker.reservations != s1.tracker.reservations ||
    s1.config.segmentIds.any fun g => s0.occupancy g != s1.occupancy g

/-- What a change of a fin shadow and of a speed shadow is handed to (R51). -/
def shadowWork (s0 s : State) : State :=
  let s := eachOf (fun r s => if s0.shadow ⟨.fin, r⟩ = s.shadow ⟨.fin, r⟩ then s else updateFinTimer r s) indices4 s
  eachOf (fun c s => if s0.shadow ⟨.speed, c⟩ = s.shadow ⟨.speed, c⟩ then s else speedShadowChanged c s) indices4 s

/-- The Brake Unit's work on a change from `s0`: floors of the run-outs it touched, shadows, stall conditions, and a
waiting profile take at a quiet point (R107, R110, R112, R115, R116). Run-outs come by ascending index, then conveyors by
ascending index, and the profile take last (log entry 49). -/
def brakeWork (s0 s : State) : State :=
  let s1 := s
  let s := eachOf (fun r s => if runoutTouched s0 s1 r then recomputeFloor r s else s) indices4 s
  let s := shadowWork s0 s
  let s := eachOf recomputeStall indices4 s
  if s.brake.pending && modelChanged s0 s && s.runoutsQuiet then takeProfiles s else s

/-! ## The pacer's part of a hand-on (R94 to R97) -/

/-- What pacer stage 1 is read from beside the clock: launch reservations, the active interval and the last launch. -/
def State.stage1Inputs (s : State) : Bool × Option (Nat × Option Nat) :=
  (s.launchReserved, s.berth.pacer.map fun p => (p.interval, p.lastLaunch))

/-- The run load and the stages after a change from `s0`: stage 1 follows the events of R95, stage 2 the run load. -/
def pacerWork (s0 s : State) : State :=
  match s.berth.pacer with
  | none => s
  | some p =>
    let stage1 := if s0.stage1Inputs = s.stage1Inputs then p.stage1 else s.stage1Met p
    s.setBerth { s.berth with pacer := some { p with runLoad := s.runLoad, stage1 := stage1, stage2 := s.stage2Met } }

/-- A stage of the pacer is met now and was not before (R97). -/
def stageBecameMet (s0 s1 : State) : Bool :=
  match s0.berth.pacer, s1.berth.pacer with
  | some p, some q => (!p.stage1 && q.stage1) || (!p.stage2 && q.stage2)
  | _, _ => false

/-- The pacer's buffer is copied to its active interval if they differ (R98). Where that lowers the interval to or below the
clock, the copy is the event at which the clock meets it (R95). -/
def copyPaceBuffer (s : State) : State :=
  match s.berth.pacer with
  | none => s
  | some p =>
    if p.buffer = p.interval then s
    else s.setBerth { s.berth with
      pacer := some { p with interval := p.buffer, reached := decide (p.buffer ≤ s.intervalClock p) } }

end Sys2Proof.Machine
end

