-- ==== Sys2Proof/Machine/Hold.lean ====
section
/-!
DEFINITION. The Hold Queue (04): how an entry ends, the examination, the purge, the withdrawal of a performance, and the
hand-on of a change to the blocks that depend on it (R6, R51, R71).
-/

namespace Sys2Proof.Machine

/-! ## Ends of entries (R80) -/

/-- The boat of a HOLD-END report: for a release word the head boat of its source, else 0. -/
def State.holdEndBoat (s : State) (w : WordRef) : Nat :=
  match w.bank with
  | .release => s.head w.index
  | .route | .fin | .speed => 0

/-- The HOLD-END report of an entry. -/
def reportHoldEnd (h : HeldEntry) (o : HoldOutcome) (r : Option Reason) (s : State) : State :=
  s.callReport (.holdEnd h o r (s.holdEndBoat h.word))

/-- The entry of a word, if the list holds one. -/
def State.heldEntry (s : State) (w : WordRef) : Option HeldEntry := s.hold.entries.find? (·.word == w)

/-- The entry of a word leaves the list. -/
def State.removeHeld (s : State) (w : WordRef) : State :=
  s.setEntries (s.hold.entries.filter (·.word != w))

/-- An entry leaves the list with its HOLD-END report, whose record is asked for before the list's image. -/
def endHeld (h : HeldEntry) (o : HoldOutcome) (r : Option Reason) (s : State) : State :=
  (reportHoldEnd h o r s).removeHeld h.word

/-! ## The hand-on of a reservation made in an examination (R72) -/

/-- The Brake Unit's, the Berth Unit's and the Report Writer's work on a change from `s0`, in that order (R6). -/
def unitWork (s0 s : State) : State := askChanged s0 (pacerWork s0 (brakeWork s0 s))

/-! ## Examination (R71, R72) -/

/-- An entry judged PASS or AMEND is performed: it leaves the list, the reservation of its verdict is created and handed
on without a new examination, and the write of its value is decided (R65, R72, R74). -/
def perform (h : HeldEntry) (value : Nat) (amended : Bool) (reserve : Option Reservation) (s : State) : State :=
  let s1 := s.removeHeld h.word
  let s2 := match reserve with
    | some r => unitWork s1 (s1.addReservation r)
    | none => s1
  s2.decideMotion h.word value (.performance { h with value := value, amended := amended } (reserve.map (·.boat)))

/-- One entry of an examination, judged as if its value were written now (R65). -/
def examineEntry (h : HeldEntry) (s : State) : State :=
  match s.judge h.word h.value with
  | .pass reserve => perform h h.value h.amended reserve s
  | .amend v _ => perform h v true none s
  | .hold _ _ reason =>
    s.setEntries (s.hold.entries.map fun x => if x.word = h.word then { x with reason := reason } else x)
  | .refuse reason => endHeld h .dropped (some reason) s

/-- An examination: each entry once, oldest first (R72). -/
def examine (s : State) : State := eachOf examineEntry s.hold.entries s

/-! ## The hand-on (R6, R51, R71) -/

/-- A dwell clock that runs is set running from a time; one that has expired stays so (R45, log entry 21). -/
def DwellClock.restart (now : Nat) : DwellClock → DwellClock
  | .running _ => .running now
  | .none => .none
  | .expired => .expired

/-- Restart the running dwell clocks of a segment's boats (R45). -/
def restartDwell (g : Nat) (s : State) : State :=
  eachOf (fun b s => s.setBoat b fun x => { x with dwell := x.dwell.restart s.clock }) (s.queue g) s

/-- R45: the segments whose successor was at capacity and now has room have their boats' dwell clocks restarted. -/
def dwellWork (s0 s : State) : State :=
  eachOf (fun g s => if s0.successorFull g && s.successorOpen g then restartDwell g s else s) s.config.segmentIds s

/-- A segment's load, condition or head boat differs (R71). -/
def segmentsMoved (s0 s1 : State) : Bool :=
  s1.config.segmentIds.any fun g =>
    s0.load g != s1.load g || s0.faulted g != s1.faulted g || s0.head g != s1.head g

/-- A conveyor's stall condition differs (R71). -/
def stallsMoved (s0 s1 : State) : Bool := indices4.any fun c => s0.stalled c != s1.stalled c

/-- A change from `s0` that the Hold Queue examines its entries for (R71). -/
def examinationDue (s0 s1 : State) : Bool :=
  segmentsMoved s0 s1 || s0.verdict.shadows != s1.verdict.shadows || stageBecameMet s0 s1 || stallsMoved s0 s1

/-- A whole change from `s0` is handed on: the dwell excuse, the Brake Unit, the pacer, and one examination last (R6, R39,
R51). -/
def handOn (s0 s : State) : State :=
  let s := unitWork s0 (dwellWork s0 s)
  if examinationDue s0 s then examine s else s

/-! ## Withdrawals and the purge (R76, R78) -/

/-- A write in the MOTION class is a performance. -/
def MotionWrite.entry? (m : MotionWrite) : Option HeldEntry :=
  match m.origin with
  | .performance h _ => some h
  | .autoClose | .lapseClose | .floorLift _ | .stallStop _ | .safe => none

/-- A write is the release performance whose verdict created the reservation of a boat (R76). -/
def MotionWrite.performsFor (m : MotionWrite) (b : Nat) : Bool :=
  match m.origin with
  | .performance _ (some c) => b == c && m.word.bank == .release
  | .performance _ none | .autoClose | .lapseClose | .floorLift _ | .stallStop _ | .safe => false

/-- R76: the reservation of a boat ended; its performance that still waits is withdrawn. Within a passage this comes before
the move, so its HOLD-END carries the crossing boat, the source's head at that moment (log entry 13). -/
def withdrawPerformance (b : Nat) (s : State) : State :=
  match s.passage.motion.find? (·.performsFor b) with
  | none => s
  | some m =>
    let s := s.setPassage { s.passage with motion := s.passage.motion.filter fun x => !x.performsFor b }
    match m.entry? with
    | some h => reportHoldEnd h .dropped (some .reservationEnded) s
    | none => s

/-- R78: every waiting performance is withdrawn, then every entry of the list removed, each with HOLD-END PURGED carrying its
last hold reason. A performance that holds the memory port is withdrawn before them, since none makes its memory write
outside RUNNING (R64, R74, log entry 18). -/
def purge (s : State) : State :=
  let withdrawn := (s.passage.port.toList ++ s.passage.motion).filterMap (·.entry?)
  let entries := s.hold.entries
  let s := s.setPassage { s.passage with
    motion := s.passage.motion.filter (·.entry?.isNone), port := s.passage.port.filter (·.entry?.isNone) }
  let s := eachOf (fun h s => reportHoldEnd h .purged (some h.reason) s) withdrawn s
  (eachOf (fun h s => reportHoldEnd h .purged (some h.reason) s) entries s).setEntries []

end Sys2Proof.Machine
end

