-- ==== Sys2Proof/Machine/Trips.lean ====
section
/-!
DEFINITION. Segment faults (R5), safe writes (R84), changes of ride state (R143, R147), trip causes and the trip action
(R148 to R151), the abort of a drill (R160).
-/

namespace Sys2Proof.Machine

/-! ## Segment faults (R5) -/

/-- A fault reaches a segment: a SOUND one records its cause and is reported, a FAULTED one keeps its cause. -/
def faultSegment (cause : Cause) (g : Nat) (s : State) : State :=
  if s.faulted g then s
  else (s.setSegment g fun l => { l with fault := some cause }).callReport (.segmentFault g cause)

/-- Faults of one step reach segments in ascending order (R40). -/
def faultSegments (cause : Cause) (gs : List Nat) (s : State) : State :=
  eachOf (faultSegment cause) (s.config.segmentIds.filter gs.contains) s

/-! ## Safe writes (R84) -/

/-- The bound words of a bank, by ascending index. -/
def FlumeConfig.boundWords (c : FlumeConfig) (b : Bank) : List WordRef :=
  let n := match b with
    | .release => Config.segmentLimit
    | .route | .fin | .speed => 4
  ((List.range n).map (WordRef.mk b)).filter c.bound

/-- The safe write of a word: CLOSED, 4, 0, and 0 as a route word's initial value. -/
def safeWrite (w : WordRef) (s : State) : State := s.decideMotion w (safeValue w.bank) .safe

/-- The safe writes of a trip and of a take's old map: release, fin and speed words in that order. -/
def safeWrites (s : State) : State :=
  eachOf safeWrite
    (s.config.boundWords .release ++ s.config.boundWords .fin ++ s.config.boundWords .speed) s

/-- The writes of the end of LOADING and of a take's new map: release, route, fin and speed words in that order. -/
def initialWrites (s : State) : State :=
  eachOf safeWrite
    (s.config.boundWords .release ++ s.config.boundWords .route ++ s.config.boundWords .fin ++
      s.config.boundWords .speed) s

/-! ## Changes of ride state (R143, R147) -/

/-- The ride state is set, and RIDE-PERMIT with it in the same event (R143). -/
def State.enterState (s : State) (r : RideState) : State := s.setRide { s.ride with state := r, permit := r.permits }

/-- The STATE report of a change from a ride state to the present one. -/
def reportState (previous : RideState) (o : Occasion) (s : State) : State :=
  s.callReport (.state previous s.ride.state o)

/-! ## Trips (R148 to R151, R160) -/

/-- The NODE report of a position, from its previous state (R142). -/
def reportNode (p : Nat) (previous : NodeState) (s : State) : State :=
  let n := s.node p
  s.callReport (.node p previous n.state n.misses n.estopOpen)

/-- A MISSING node returns to ACTIVE (R125, R139). -/
def returnNode (p : Nat) (s : State) : State :=
  if (s.node p).state = .missing then
    reportNode p .missing (s.setNode p fun n => { n with state := .active, misses := 0 })
  else s

/-- R139: the withholding of head frames ends, and each MISSING node returns to ACTIVE, by ascending position
(log entry 49). -/
def returnNodes (s : State) : State := eachOf returnNode s.config.positions s

/-- R160: a sustain drill in progress becomes none, and head frames are no longer withheld (R141). -/
def endDrill (s : State) : State := s.setRide { s.ride with drill := none }

/-- The result and the DRILL report of an aborted sustain drill, its phase as detail (R160). The report names no failed
positions, since no outcome was taken (log entry 32). -/
def reportAbort (d : Drill) (s : State) : State :=
  (s.answer d.tag DirectiveKind.drill.code .aborted none [d.phase.code]).callReport
    (.drill true .aborted d.phase.code [])

/-- The abort of a sustain drill: its result and report, and, in the withheld rounds with the line UP, the end of the
withholding (R139, R141, R160). The NODE records stand behind the action's own (log entry 32). A line that has gone DOWN
leaves node states and miss counts as they stood (R129). -/
def abortDrill (d : Drill) (s : State) : State :=
  let s := reportAbort d s
  if d.phase = .withheld && s.line.state == .up then returnNodes s else s

/-- The trip block of a first cause (R149 step 2, R150). -/
def TripBlock.start (cause : Cause) (k : DetailKind) (detail now : Nat) : TripBlock :=
  { first := some cause, detailKind := k, detail := detail, time := now, causes := [cause], additional := 0 }

/-- R149: the trip action. Its records stand as HOLD-END PURGED, TRIP, STATE, and the DRILL report of an aborted drill. The
STATE record's occasion is TRIP, also where the action takes the place of an entry into STOPPED (R146, log entry 46). -/
def tripAction (cause : Cause) (k : DetailKind) (detail : Nat) (s : State) : State :=
  let previous := s.ride.state
  let drill := s.ride.drill
  let s := s.enterState .tripped
  let s := s.setRide { s.ride with trip := .start cause k detail s.clock }
  let s := safeWrites (purge s)
  let s := endDrill s
  let s := (reportState previous .trip (s.callReport (.trip cause k detail false [cause]))).askImage .ride false
  match drill with
  | some d => abortDrill d s
  | none => s

/-- R151: a cause taken in TRIPPED joins the cause set, and the ride block is rewritten also where the set held its kind and
the count stands at its limit. -/
def addCause (cause : Cause) (k : DetailKind) (detail : Nat) (s : State) : State :=
  let t := s.ride.trip
  let causes := if t.causes.contains cause then t.causes else t.causes ++ [cause]
  let s := s.setRide { s.ride with
    trip := { t with causes := causes, additional := saturatingSucc t.additional } }
  (s.callReport (.trip cause k detail true causes)).askImage .ride false

/-- R148: what a cause does in the ride state it finds. -/
def raiseCause (cause : Cause) (k : DetailKind) (detail : Nat) (s : State) : State :=
  match s.ride.state with
  | .stopped | .running => tripAction cause k detail s
  | .tripped => addCause cause k detail s
  | .loading | .offline _ => s

end Sys2Proof.Machine
end

