-- ==== Sys2Proof/Machine/Tracking.lean ====
section
/-!
DEFINITION. The Ride Tracker (02): counts, the passage procedure, lapses, overdue boats, eye faults; and the launch passage
actions of the Berth Unit (R92).
-/

namespace Sys2Proof.Machine

/-! ## Edges by their ends -/

/-- The source and the destination of an edge. -/
def FlumeConfig.source (c : FlumeConfig) (e : Nat) : Nat := ((c.edges[e]?).map (·.source)).getD 0
def FlumeConfig.destination (c : FlumeConfig) (e : Nat) : Nat := ((c.edges[e]?).map (·.destination)).getD 0

/-- The segments on both sides of an edge become FAULTED, and the cause is raised with the edge as detail. -/
def faultEdge (cause : Cause) (e : Nat) (s : State) : State :=
  raiseCause cause .edge e (faultSegments cause [s.config.source e, s.config.destination e] s)

/-! ## Gate closes (R38, R43) -/

/-- A close that the Ride Tracker decided for a release word waits in the MOTION class. -/
def State.closeWaiting (s : State) (g : Nat) : Bool :=
  s.passage.motion.any fun m =>
    m.word == ⟨.release, g⟩ && !m.oldMap && (m.origin == .autoClose || m.origin == .lapseClose)

/-- A granted performance is opening a gate: its write holds the port, and its word counts as OPEN from the grant on (R76). -/
def State.gateOpening (s : State) (g : Nat) : Bool :=
  s.passage.port.any fun m => m.word == ⟨.release, g⟩ && !m.oldMap && m.value == 1

/-- The gate of a segment stands OPEN, or a granted performance is opening it (R76). -/
def State.gateOpen (s : State) (g : Nat) : Bool := s.shadow ⟨.release, g⟩ == some 1 || s.gateOpening g

/-- The gate of a segment is closed if it stands OPEN and no close of the Ride Tracker waits for it. -/
def closeGate (origin : MotionOrigin) (g : Nat) (s : State) : State :=
  if (s.config.segment g).gated && s.gateOpen g && !s.closeWaiting g then
    s.decideMotion ⟨.release, g⟩ 0 origin
  else s

/-! ## Reservations that end with a boat (R12, R76) -/

/-- A boat's reservation is removed, and its performance that still waits is withdrawn. -/
def endReservation (b : Nat) (s : State) : State := withdrawPerformance b (s.dropReservations (·.boat == b))

/-! ## The passage procedure (R29) -/

/-- Step 2 for a gated edge: consumption, WRONG-WAY or UNBIDDEN (R31 to R33). A WRONG-WAY cancels the reservation, and
withdraws its waiting performance with HOLD-END DROPPED, before its SEGMENT-FAULT and TRIP records and before the trip's
purge (log entry 13). -/
def reservationCheck (e b : Nat) (s : State) : PassageOutcome × State :=
  match s.reservationOf b with
  | some r =>
    if r.edge = e then (.reserved, endReservation b s)
    else
      let s := faultSegments .wrongWay [s.config.destination e, s.config.destination r.edge] (endReservation b s)
      (.wrongWay, raiseCause .wrongWay .edge e s)
  | none => (.unbidden, raiseCause .unbidden .edge e (faultSegments .unbidden [s.config.destination e] s))

/-- Step 2 for a free edge: the destination is full, or not (R34). -/
def roomCheck (e : Nat) (s : State) : PassageOutcome × State :=
  if s.atCapacity (s.config.destination e) then
    (.overfill, raiseCause .overfill .edge e (faultSegments .overfill [s.config.destination e] s))
  else (.free, s)

/-- Step 2. -/
def stepTwo (e b : Nat) (s : State) : PassageOutcome × State :=
  if (s.config.segment (s.config.source e)).gated then reservationCheck e b s else roomCheck e s

/-- The boat's dwell in the source is below the source's minimum (R35). -/
def State.tooEarly (s : State) (x b : Nat) : Bool := decide (s.clock - (s.boat b).arrival < (s.config.segment x).minDwell)

/-- Step 3: the dwell check on the source (R35). -/
def dwellCheck (x b : Nat) (s : State) : State :=
  if s.tooEarly x b then raiseCause .early .segment x (faultSegments .early [x] s) else s

/-- Step 4: the boat leaves the head of its queue and joins the tail of the destination's (R36). -/
def moveBoat (e b : Nat) (s : State) : State :=
  let x := s.config.source e
  let y := s.config.destination e
  let s := s.setQueue x (s.queue x).tail
  let s := (s.arrive b y).setBoat b fun r => { r with lastEdge := some e }
  s.setQueue y (s.queue y ++ [b])

/-- Step 5: the tag check on a tagged edge (R37). -/
def tagCheck (e b tag : Nat) (s : State) : State :=
  if !((s.config.edges[e]?).any (·.tag)) || tag = 0 || tag = b then s
  else
    let doubt (r : BoatRecord) : BoatRecord := { r with identityDoubt := true }
    let s := s.setBoat b doubt
    let s := if tag ≤ Config.boatCount && (s.boat tag).status != .absent then s.setBoat tag doubt else s
    s.callReport (.identity b e tag)

/-- The weight capture of R91 in a boat's record. -/
def captureWeight (c : FlumeConfig) (w : BerthLive) (r : BoatRecord) : BoatRecord :=
  { r with weightClass := some (if w.stale then .heavy else c.classOf w.lastWeight)
           lastWeight := w.lastWeight
           weighStale := w.stale }

/-- The record of the berth that a segment is; a segment that is no berth has none. -/
def State.berthOf (s : State) (x : Nat) : Option BerthLive := (s.config.segment x).berth.bind s.berthLive

/-- The launch passage actions: weight capture, launch count, last launch passage, a waiting interval buffer (R92). -/
def launchActions (x b : Nat) (s : State) : State :=
  let s := match s.berthOf x with
    | some w => s.setBoat b (captureWeight s.config w)
    | none => s
  let s := s.setBoat b fun r => { r with launchCount := saturatingSucc r.launchCount }
  match s.berth.pacer with
  | some p => copyPaceBuffer (s.setBerth { s.berth with pacer := some { p with lastLaunch := some s.clock, reached := false } })
  | none => s

/-- Steps 2 to 6 and the launch passage actions of a passage that moves a boat. -/
def passageOf (e b tag : Nat) (s : State) : State :=
  let x := s.config.source e
  let y := s.config.destination e
  let early := s.tooEarly x b
  let (outcome, s) := stepTwo e b s
  let s := moveBoat e b (dwellCheck x b s)
  let s := tagCheck e b tag (s.callReport (.passage b e outcome early x y))
  let s := closeGate .autoClose x s
  if s.config.edgeLaunch e then launchActions x b s else s

/-- R29: one boat crosses one edge, or the eye counts a boat that the model does not have (R30). -/
def takePassage (e tag : Nat) (s : State) : State :=
  match s.queue (s.config.source e) with
  | [] => handOn s (faultEdge .phantom e s)
  | b :: _ => handOn s (passageOf e b tag s)

/-! ## Counts and eye states (R22 to R28, R47) -/

/-- An eye changes to FAULT (R47). -/
def eyeFails (e : Nat) (s : State) : State :=
  let x := s.config.source e
  let y := s.config.destination e
  let s1 := faultSegments .eyeFault [x, y] s
  handOn s (if s.occupied x || s.occupied y then raiseCause .eyeFault .edge e s1 else s1)

/-- A counter is compared with the baseline: no passage, one passage, or BURST-PASSAGE (R23, R25). -/
def countPassages (e baseline counter tag : Nat) (s : State) : State :=
  match (counter + 16 - baseline) % 16 with
  | 0 => s
  | 1 => takePassage e tag s
  | _ => handOn s (faultEdge .burstPassage e s)

/-- One eye of a report: its state first, then its counter (R23, R24, R26). -/
def takeEye (e : Nat) (state : EyeState) (counter tag : Nat) (s : State) : State :=
  let old := s.eye e
  if state = .fault then
    let s := s.setEye e fun _ => ⟨.fault, old.baseline.map fun _ => counter⟩
    if old.state = .fault then s else eyeFails e s
  else
    let s := s.setEye e fun _ => ⟨state, some counter⟩
    match old.baseline with
    | none => s
    | some b => countPassages e b counter tag s

/-- An input of a report; one that carries no configured eye is ignored (R22). -/
def takeInput (p : Nat) (r : NodeReport) (i : Nat) (s : State) : State :=
  match s.config.edgeAtEye p i with
  | none => s
  | some e => takeEye e (r.eyes.getD i .unknown) (r.counters.getD i 0) r.tag s

/-- The inputs of a report, from the highest to the lowest (R28). -/
def takeInputs (p : Nat) (r : NodeReport) (s : State) : State := eachOf (takeInput p r) [3, 2, 1, 0] s

/-! ## Lapse and overdue (R41, R43, R46) -/

/-- The reservation of a boat whose deadline the ride clock has reached. -/
def State.lapsing (s : State) (b : Nat) : Option Reservation :=
  s.tracker.reservations.find? fun r => r.boat == b && decide (r.deadline ≤ s.clock)

/-- R41, R43: a reservation lapses. -/
def lapse (r : Reservation) (s : State) : State :=
  let s1 := (s.dropReservations (·.boat == r.boat)).callReport (.lapse r.boat r.edge r.deadline)
  let s1 := withdrawPerformance r.boat s1
  handOn s (closeGate .lapseClose (s.config.source r.edge) s1)

/-- A boat's dwell clock has reached its segment's maximum dwell, in RUNNING with room ahead (R44 to R46). -/
def State.overdue (s : State) (b : Nat) : Bool :=
  match (s.boat b).dwell, (s.boat b).segment with
  | .running t, some g =>
    s.running && (s.config.segment g).maxDwell.any (fun m => decide (t + m ≤ s.clock)) && !s.successorFull g
  | _, _ => false

/-- R46: a boat is overdue in its segment. -/
def takeOverdue (b g : Nat) (s : State) : State :=
  let s1 := s.setBoat b fun r => { r with dwell := .expired }
  handOn s (raiseCause .overdue .segment g (faultSegments .overdue [g] s1))

/-! ## Starting dwell clocks (R44) -/

/-- The ride state enters RUNNING: the dwell clock of every boat in a segment with a maximum dwell starts (R44). -/
def startDwells (s : State) : State :=
  eachOf (fun b s =>
      if (s.boat b).segment.any fun g => (s.config.segment g).maxDwell.isSome then
        s.setBoat b fun r => { r with dwell := .running s.clock }
      else s)
    boatNumbers s

end Sys2Proof.Machine
end

