-- ==== Sys2Proof/Machine/CourseLine.lean ====
section
/-!
DEFINITION. The Line Controller (07): slots, lost nodes, silence, the line going DOWN, the start of a discovery, rounds and
the sustain drill on the line; berth samples (R89, R90) and fin feedback (R111).
-/

namespace Sys2Proof.Machine

/-! ## Berth samples (R89, R90) -/

/-- A berth's age rises by one round (R90). -/
def BerthLive.older (b : BerthLive) : BerthLive := { b with age := min (b.age + 1) 255 }

/-- A berth record takes the slow channel of a report (R89). -/
def BerthLive.sample (fresh : Bool) (slow : Nat) (b : BerthLive) : BerthLive :=
  if fresh then { b with lastWeight := if slow ≤ 2000 then slow else Config.noWeight, age := 0 } else b.older

/-- The berths whose weighing node stands at a position. -/
def FlumeConfig.berthsWeighedAt (c : FlumeConfig) (p : Nat) : List Nat := indices4.filter fun i => c.weighingNode i == some p

/-- A change of the berth records that a node weighs. -/
def weighAt (p : Nat) (f : BerthLive → BerthLive) (s : State) : State :=
  eachOf (fun i s => s.setBerthLive i f) (s.config.berthsWeighedAt p) s

/-! ## Fin feedback (R111) -/

/-- The run-outs whose fin node stands at a position. -/
def FlumeConfig.runoutsSensedAt (c : FlumeConfig) (p : Nat) : List Nat := indices4.filter fun r => c.finNode r == some p

/-- The feedback of the run-outs that a node senses is set. -/
def senseFinsAt (p : Nat) (f : FinFeedback) (s : State) : State :=
  eachOf (fun r s => setFeedback r f s) (s.config.runoutsSensedAt p) s

/-- Every run-out's feedback becomes none, and its timer IDLE (R111, R112). -/
def clearFeedback (s : State) : State := eachOf (fun r s => setFeedback r .none s) indices4 s

/-! ## Eyes that are lost (R10) -/

/-- The edges whose eye stands on a node. -/
def FlumeConfig.edgesAt (c : FlumeConfig) (p : Nat) : List Nat :=
  c.edgeIds.filter fun e => (c.edges[e]?).any (·.eyeNode == p)

/-- The eyes of edges become UNKNOWN, their baselines kept. -/
def blindEyes (es : List Nat) (s : State) : State :=
  eachOf (fun e s => s.setEye e fun x => { x with state := .unknown }) es s

/-- Every eye becomes UNKNOWN with its baseline unset (R10). -/
def resetEyes (s : State) : State := s.setTracker { s.tracker with eyes := s.tracker.eyes.map fun _ => ⟨.unknown, none⟩ }

/-! ## A node's parts (R124, R138, R140) -/

/-- R138: the estop contact of a report against the node table. -/
def takeEstop (p : Nat) (isOpen : Bool) (s : State) : State :=
  if (s.node p).estopOpen = isOpen then s
  else
    let s := reportNode p (s.node p).state (s.setNode p fun n => { n with estopOpen := isOpen })
    if isOpen then raiseCause .estop .node p s else s

/-- The check rounds of the sustain drill are running. -/
def State.checking (s : State) : Bool := s.ride.drill.any (·.phase == .check)

/-- R124, R140: the sustained flag is recorded, and in the check rounds it sets a result not yet set. -/
def takeSustained (p : Nat) (flagged : Bool) (s : State) : State :=
  let checking := s.checking
  s.setNode p fun n =>
    { n with
      sustained := flagged
      result := if checking && n.result == .untested then (if flagged then .passed else .failed) else n.result }

/-- R124: a valid report of a node that is ACTIVE or MISSING. -/
def takeReport (p : Nat) (r : NodeReport) (s : State) : State :=
  let s := takeSustained p r.sustained (returnNode p s)
  let s := takeInputs p r (takeEstop p r.estopOpen s)
  senseFinsAt p r.fin (weighAt p (BerthLive.sample r.fresh r.slow) s)

/-- R126: a node becomes LOST. -/
def loseNode (p : Nat) (s : State) : State :=
  let es := s.config.edgesAt p
  let s1 := reportNode p (s.node p).state (s.setNode p fun n => { n with state := .lost, misses := Config.missLimit })
  let s1 := faultSegments .nodeLost (es.flatMap fun e => [s.config.source e, s.config.destination e]) (blindEyes es s1)
  handOn s (raiseCause .nodeLost .node p (senseFinsAt p .noReading s1))

/-- R125: a missed slot. -/
def missSlot (p : Nat) (s : State) : State :=
  let n := s.node p
  let s := weighAt p BerthLive.older s
  match n.state with
  | .active => reportNode p .active (s.setNode p fun x => { x with state := .missing, misses := 1 })
  | .missing => if n.misses = 1 then s.setNode p fun x => { x with misses := 2 } else loseNode p s
  | .absent | .lost => s

/-! ## The close of a round (R127, R140, R159) -/

/-- The positions whose sustain result is FAILED. -/
def State.failedPositions (s : State) : List Nat := s.config.positions.filter fun p => (s.node p).result == .failed

/-- R159: the sustain drill ends with its outcome; the ride block and the node table image are rewritten. Word 3 of the
result is the set of the failed positions, bit p-1 for position p (log entry 51). -/
def endSustain (d : Drill) (s : State) : State :=
  let failed := s.failedPositions
  let s := (endDrill s).answer d.tag DirectiveKind.drill.code .done none [failed.length, bitSet (failed.map (· - 1))]
  let s := s.callReport (.drill true (if failed.isEmpty then .passed else .failed) failed.length failed)
  eachOf (fun i s => s.askImage i false) (.ride :: nodePositions.map .node) s

/-- R140: the close of a check round; the check ends when every node has a result, and at the latest with the third. -/
def closeCheckRound (s : State) : State :=
  match s.ride.drill with
  | some ⟨tag, .check, left⟩ =>
    if left ≤ 1 || s.config.positions.all fun p => (s.node p).result != .untested then endSustain ⟨tag, .check, left⟩ s
    else s.setRide { s.ride with drill := some ⟨tag, .check, left - 1⟩ }
  | some ⟨_, .withheld, _⟩ => s
  | none => s

/-- R127: the close of a round that the line ran. -/
def closeRound (s : State) : State :=
  let silence := if s.line.heard then 0 else min (s.line.silence + 1) Config.silenceLimit
  closeCheckRound (s.setLine { s.line with slot := none, silence := silence })

/-- The close of slot `p`: the next slot is open, or the round closes (R122, R127). -/
def closeSlot (p : Nat) (s : State) : State :=
  if p < s.config.nodes.length then s.setLine { s.line with slot := some (p + 1) } else closeRound s

/-- The slot of position `p` with a valid report in its window (R123 to R127). -/
def slotReport (p : Nat) (r : NodeReport) (s : State) : State :=
  let s := s.setLine { s.line with heard := true }
  closeSlot p (if (s.node p).state = .lost then weighAt p BerthLive.older s else takeReport p r s)

/-- The slot of position `p` with no valid report (R123, R125). -/
def slotMiss (p : Nat) (s : State) : State := closeSlot p (missSlot p s)

/-! ## Rounds (R122, R136, R137, R139) -/

/-- A node that is heard, ACTIVE or MISSING, has the sustained flag set (R137). -/
def State.sustainedHeard (s : State) : Bool :=
  s.config.positions.any fun p =>
    ((s.node p).state == .active || (s.node p).state == .missing) && (s.node p).sustained

/-- The head frame of a round: TRIP in TRIPPED, UNSUSTAIN outside the drill while a heard node is sustained. -/
def State.headFrame (s : State) (round : Nat) : List Byte :=
  Machine.headFrame round (s.ride.state == .tripped) (s.sustainedHeard && s.ride.drill.isNone)

/-- The head frame of a round is sent and its first slot opens; the next round begins at `next` (R122). -/
def sendRound (round next : Nat) (s : State) : State :=
  s.setLine { s.line with
    round := round, heard := false, slot := some 1, nextRound := next, tx := .frame (s.headFrame round) }

/-- R139: the withholding ends: each MISSING node returns to ACTIVE, and the check rounds begin. -/
def endWithholding (tag : BitVec 16) (s : State) : State :=
  let s := returnNodes s
  s.setRide { s.ride with drill := some ⟨tag, .check, Config.checkRounds⟩ }

/-- R139: a withheld round: its number passes and nothing is sent. -/
def withholdRound (round next : Nat) (s : State) : State :=
  s.setLine { s.line with round := round, nextRound := next, tx := .released }

/-- R122, R139: the next round begins, sent or withheld. Rounds stand 2 ms apart, counted from the first. -/
def beginRound (s : State) : State :=
  let round := (s.line.round + 1) % 256
  let next := s.line.nextRound + Config.roundMs
  match s.ride.drill with
  | some ⟨tag, .withheld, left + 1⟩ =>
    withholdRound round next (s.setRide { s.ride with drill := some ⟨tag, .withheld, left⟩ })
  | some ⟨tag, .withheld, 0⟩ => sendRound round next (endWithholding tag s)
  | some ⟨_, .check, _⟩ => sendRound round next s
  | none => sendRound round next s

/-! ## The line goes DOWN (R129) -/

/-- The line leaves UP: no slot is open. -/
def stopRounds (state : LineState) (s : State) : State :=
  s.setLine { s.line with state := state, slot := none, tx := .released }

/-- R129: the line goes DOWN. Its LINE record has neither position nor count, and 0 in that byte (log entry 48). -/
def lineDown (cause : LineCause) (s : State) : State :=
  let s1 := (stopRounds .down s).callReport (.line .down cause 0)
  let s1 := faultSegments .lineDown s.config.segmentIds s1
  let s1 := clearFeedback (blindEyes s.config.edgeIds s1)
  handOn s (raiseCause .lineDown .none 0 s1)

/-! ## The start of a discovery (R130, R131) -/

/-- A node table entry at the start of a discovery: the expected kind is kept. -/
def NodeEntry.undiscovered (n : NodeEntry) : NodeEntry := { NodeEntry.blank with expected := n.expected }

/-- A berth record in its stale starting state (R88). -/
def BerthLive.start (i : Nat) : BerthLive := { index := i, lastWeight := Config.noWeight, age := 255 }

/-- With boats in service every SOUND segment becomes FAULTED with LINE-RESTART (R130). -/
def faultForRestart (s : State) : State :=
  if s.inService then handOn s (faultSegments .lineRestart s.config.segmentIds s) else s

/-- R130, R131: a discovery starts, and the break with it. Its LINE record has 0 in the position or count byte (log entry
48). -/
def startDiscovery (s : State) : State :=
  let s := (stopRounds .discovering (faultForRestart s)).callReport (.line .discovering .none 0)
  let s := s.setLine { s.line with
    nodes := s.line.nodes.map NodeEntry.undiscovered, silence := 0, discovery := .breaking s.clock, tx := .lowForBreak }
  let s := s.setBerth { s.berth with berths := s.berth.berths.map fun b => BerthLive.start b.index }
  clearFeedback (resetEyes s)

/-- A query is sent to a position (R131). -/
def sendQuery (p : Nat) (s : State) : State :=
  s.setLine { s.line with discovery := .query p s.clock, tx := .frame (queryFrame p) }

end Sys2Proof.Machine
end

