-- ==== Sys2Proof/Machine/ConfigImage.lean ====
section
/-!
DEFINITION. The configuration image (11.5, R192): its fields read from bytes, and the thirteen checks of R183 in order. A
failure is a check number and an item; which item a check names first is in log entries 23 and 24.
-/

namespace Sys2Proof.Machine

/-- The `n` bytes at an offset, read little-endian. -/
def fieldAt (bs : List Byte) (offset n : Nat) : Nat := leNat ((bs.drop offset).take n)

/-- An index byte of the segment table: FFh is absent. -/
def indexByte (n : Nat) : Option Nat := if n = 255 then none else some n

/-! ## The header (11.5) -/

def imageMarker : Nat := 0x7A3C1E48
def headerBytes : Nat := 16
def imageLength (bs : List Byte) : Nat := fieldAt bs 8 4
def imageCrc (bs : List Byte) : Nat := fieldAt bs 12 2

/-! ## The settings and the counts -/

/-- The word `i` of the settings. -/
def setting (bs : List Byte) (i : Nat) : Nat := fieldAt bs (16 + 4 * i) 4

def nodeCount (bs : List Byte) : Nat := setting bs 7
def segmentCount (bs : List Byte) : Nat := setting bs 8
def edgeCount (bs : List Byte) : Nat := setting bs 9

/-- The offsets of the sections after the settings, in order. -/
def nodesAt : Nat := 80
def segmentsAt (bs : List Byte) : Nat := nodesAt + 4 * nodeCount bs
def edgesAt (bs : List Byte) : Nat := segmentsAt bs + 32 * segmentCount bs
def runSetAt (bs : List Byte) : Nat := edgesAt bs + 16 * edgeCount bs
def maximaAt (bs : List Byte) : Nat := runSetAt bs + 4
def profilesAt (bs : List Byte) : Nat := maximaAt bs + 16
def mapAt (bs : List Byte) : Nat := profilesAt bs + 96

/-! ## Entries -/

/-- The kind code of a node position. -/
def nodeCode (bs : List Byte) (p : Nat) : Nat := fieldAt bs (nodesAt + 4 * (p - 1)) 1

/-- The code of a segment kind (11.1). -/
def SegmentKind.ofCode : Nat → Option SegmentKind
  | 0 => some .berth | 1 => some .queue | 2 => some .lift | 3 => some .crest | 4 => some .free | 5 => some .runout
  | _ => none

/-- The bytes and the words of a segment entry. -/
def segmentField (bs : List Byte) (g offset n : Nat) : Nat := fieldAt bs (segmentsAt bs + 32 * g + offset) n

/-- A segment entry as configured fields. Bits 7 to 2 of its flags are not read, and a weigh flag is read for a BERTH alone
(log entry 53). -/
def segmentOf (bs : List Byte) (g : Nat) : SegmentCfg :=
  let byte i := segmentField bs g i 1
  { kind := (SegmentKind.ofCode (byte 0)).getD .queue
    capacity := byte 1
    gated := hasBit (byte 2) 0
    weigh := hasBit (byte 2) 1
    berth := indexByte (byte 3)
    conveyor := indexByte (byte 4)
    runout := indexByte (byte 5)
    feed := indexByte (byte 6)
    route := indexByte (byte 7)
    releaseWindow := segmentField bs g 8 4
    minDwell := segmentField bs g 12 4
    maxDwell := if segmentField bs g 16 4 = 0 then none else some (segmentField bs g 16 4) }

/-- An edge entry as configured fields. Bits 7 to 2 of its flags are not read (log entry 53). -/
def edgeOf (bs : List Byte) (e : Nat) : EdgeCfg :=
  let byte i := fieldAt bs (edgesAt bs + 16 * e + i) 1
  { source := byte 0, destination := byte 1, eyeNode := byte 2, eyeInput := byte 3
    launch := hasBit (byte 4) 0, tag := hasBit (byte 4) 1 }

def runSetWord (bs : List Byte) : Nat := fieldAt bs (runSetAt bs) 4
def maximumAt (bs : List Byte) (c : Nat) : Nat := fieldAt bs (maximaAt bs + 4 * c) 4
def stepCount (bs : List Byte) (k : Nat) : Nat := fieldAt bs (profilesAt bs + 32 * k) 4
def stepWord (bs : List Byte) (k i : Nat) : Nat := fieldAt bs (profilesAt bs + 32 * k + 4 + 4 * i) 4

/-- A step word: time in bits 15 to 0, stage in bits 23 to 16. Bits 31 to 24 are not read (log entry 53). -/
def stepOf (w : Nat) : ProfileStep := ⟨w % 65536, w / 65536 % 256⟩

/-- The steps of a profile class. -/
def profileOf (bs : List Byte) (k : Nat) : List ProfileStep :=
  (List.range (stepCount bs k)).map fun i => stepOf (stepWord bs k i)

/-- A map entry, in the order of R163. -/
def mapEntryOf (bs : List Byte) (i : Nat) : MapEntry := ⟨fieldAt bs (mapAt bs + 16 * i) 4, fieldAt bs (mapAt bs + 16 * i + 4) 4⟩

/-- The configuration that an image spells. -/
def configOf (bs : List Byte) : FlumeConfig :=
  { holdLimit := setting bs 0
    finLag := setting bs 1
    launchInterval := setting bs 2
    runMax := setting bs 3
    t1 := setting bs 4
    t2 := setting bs 5
    ringCount := setting bs 6
    nodes := (List.range (nodeCount bs)).filterMap fun i => NodeKind.ofCode (nodeCode bs (i + 1))
    segments := (List.range (segmentCount bs)).map (segmentOf bs)
    edges := (List.range (edgeCount bs)).map (edgeOf bs)
    runSet := (List.range (segmentCount bs)).filter fun g => hasBit (runSetWord bs) g
    maxSpeeds := indices4.map (maximumAt bs)
    profiles := ⟨profileOf bs 0, profileOf bs 1, profileOf bs 2⟩
    map := { release := mapEntryOf bs 0, route := mapEntryOf bs 1, fin := mapEntryOf bs 2, speed := mapEntryOf bs 3
             roster := mapEntryOf bs 4, ring := mapEntryOf bs 5
             windows := [mapEntryOf bs 6, mapEntryOf bs 7, mapEntryOf bs 8, mapEntryOf bs 9] } }

/-! ## Finding the first failure -/

/-- A check with a number, and the items it finds failing in its order: the first one names the failure. -/
def failing (number : Nat) (items : List Nat) : Option (Nat × Nat) := items.head?.map fun i => (number, i)

/-- A condition that concerns no item. -/
def failingIf (number : Nat) (fails : Bool) : Option (Nat × Nat) := if fails then some (number, 0) else none

/-- The first failure of a list of checks. -/
def firstFailure (checks : List (Option (Nat × Nat))) : Option (Nat × Nat) := checks.findSome? id

/-- A value lies from `low` to `high`. -/
def within (low high n : Nat) : Bool := decide (low ≤ n ∧ n ≤ high)

/-! ## Check 5: ranges -/

/-- The settings and the counts lie in their ranges. -/
def settingsOk (bs : List Byte) : Bool :=
  within 500 60000 (setting bs 0) && within 100 2000 (setting bs 1) && within 1000 60000 (setting bs 2)
    && within 1 32 (setting bs 3) && within 16 1024 (setting bs 6) && within 1 16 (nodeCount bs)
    && within 1 24 (segmentCount bs) && within 1 32 (edgeCount bs)

/-- The length is that of the counts (R192). -/
def lengthOk (bs : List Byte) : Bool :=
  imageLength bs == 356 + 4 * nodeCount bs + 32 * segmentCount bs + 16 * edgeCount bs

/-- An index is absent or at most `high`. -/
def indexOk (high : Nat) (i : Option Nat) : Bool := i.all (decide <| · ≤ high)

/-- The fields of a segment lie in their ranges (R1). -/
def segmentRangeOk (bs : List Byte) (g : Nat) : Bool :=
  let x := segmentOf bs g
  (SegmentKind.ofCode (segmentField bs g 0 1)).isSome && within 1 8 x.capacity
    && indexOk 3 x.berth && indexOk 3 x.conveyor && indexOk 3 x.runout && indexOk 23 x.feed && indexOk 3 x.route
    && (x.releaseWindow == 0 || within 100 60000 x.releaseWindow) && within 0 60000 x.minDwell
    && x.maxDwell.all (within 100 600000)

/-- The fields of an edge lie in their ranges (R8). -/
def edgeRangeOk (bs : List Byte) (e : Nat) : Bool :=
  let x := edgeOf bs e
  within 0 23 x.source && within 0 23 x.destination && within 1 16 x.eyeNode && within 0 3 x.eyeInput

/-- The count and the steps of a profile lie in their ranges, and the step words beyond the count are zero (R105, R192). -/
def profileRangeOk (bs : List Byte) (k : Nat) : Bool :=
  within 1 4 (stepCount bs k) && indices4.all fun i =>
    if i < stepCount bs k then
      within 0 60000 (stepOf (stepWord bs k i)).time && within 0 4 (stepOf (stepWord bs k i)).stage
    else stepWord bs k i == 0

/-- Check 5, in the order of log entry 23. A node of kind code 0 fails it (log entry 53). -/
def rangeFailure (bs : List Byte) : Option (Nat × Nat) :=
  firstFailure [
    failingIf 5 (!settingsOk bs),
    failingIf 5 (!lengthOk bs),
    failing 5 (((List.range (nodeCount bs)).map (· + 1)).filter fun p => (NodeKind.ofCode (nodeCode bs p)).isNone),
    failing 5 ((List.range (segmentCount bs)).filter fun g => !segmentRangeOk bs g),
    failing 5 ((List.range (edgeCount bs)).filter fun e => !edgeRangeOk bs e),
    failing 5 (indices4.filter fun c => !within 0 1000 (maximumAt bs c)),
    failing 5 ([0, 1, 2].filter fun k => !profileRangeOk bs k),
    failing 5 ((List.range 10).filter fun i => !within 0 0xFFFFFF (mapEntryOf bs i).base)]

/-! ## Check 6: the graph (R2, R8, R9) -/

/-- An edge joins two different configured segments. -/
def edgeEndsOk (c : FlumeConfig) (e : Nat) : Bool :=
  (c.edges[e]?).any fun x =>
    decide (x.source < c.segments.length) && decide (x.destination < c.segments.length) && x.source != x.destination

/-- The attributes that a segment's kind requires, and none that it may not carry (R2, R192). The capacity 1 of a BERTH and
a CREST belongs here, to check 6 (log entry 24). -/
def kindOk (c : FlumeConfig) (g : Nat) : Bool :=
  let x := c.segment g
  let single := (c.exits g).length == 1
  let plain := x.berth.isNone && x.conveyor.isNone && x.runout.isNone && x.feed.isNone
  match x.kind with
  | .berth => x.capacity == 1 && single && x.berth.isSome && x.conveyor.isNone && x.runout.isNone && x.feed.isNone
  | .queue | .free => plain
  | .lift => single && x.conveyor.isSome && x.berth.isNone && x.runout.isNone && x.feed.isNone
  | .crest =>
    x.capacity == 1 && single && x.conveyor.isSome && x.berth.isNone && x.runout.isNone && x.feed.isNone
  | .runout =>
    x.runout.isSome && x.berth.isNone && x.conveyor.isNone
      && x.feed.any fun f => (c.entries g).any fun e => c.edgeFrom e f

/-- The rules of R2 and R8 for a segment of any kind but those of its route word index. -/
def segmentOk (c : FlumeConfig) (g : Nat) : Bool :=
  let x := c.segment g
  kindOk c g && within 1 2 (c.exits g).length && !(c.entries g).isEmpty
    && (x.releaseWindow != 0) == x.gated && !(x.maxDwell.isSome && x.gated)

/-- A route word index is present exactly when the segment has two exits. -/
def splitOk (c : FlumeConfig) (g : Nat) : Bool := (c.segment g).route.isSome == ((c.exits g).length == 2)

/-- The segments of a kind that carry an index. -/
def carriers (c : FlumeConfig) (k : SegmentKind) (index : SegmentCfg → Option Nat) (i : Nat) : Nat :=
  (c.segmentIds.filter fun g => (c.segment g).kind == k && index (c.segment g) == some i).length

/-- A conveyor index is carried by one LIFT and one CREST, or by no segment. -/
def conveyorOk (c : FlumeConfig) (i : Nat) : Bool :=
  let lifts := carriers c .lift (·.conveyor) i
  let crests := carriers c .crest (·.conveyor) i
  (lifts == 0 && crests == 0) || (lifts == 1 && crests == 1)

/-- A launch flag stands on an edge out of a gated BERTH. -/
def launchOk (c : FlumeConfig) (e : Nat) : Bool :=
  (c.edges[e]?).all fun x => !x.launch || ((c.segment x.source).kind == .berth && (c.segment x.source).gated)

def graphFailure (c : FlumeConfig) : Option (Nat × Nat) :=
  firstFailure [
    failing 6 (c.edgeIds.filter fun e => !edgeEndsOk c e),
    failing 6 (c.segmentIds.filter fun g => !segmentOk c g),
    failing 6 (c.segmentIds.filter fun g => !splitOk c g),
    failing 6 (indices4.filter fun i => !conveyorOk c i),
    failing 6 (indices4.filter fun i => decide (1 < carriers c .runout (·.runout) i)),
    failing 6 (indices4.filter fun i => decide (1 < carriers c .berth (·.berth) i)),
    failing 6 (c.edgeIds.filter fun e => !launchOk c e),
    failing 6 ((c.edgeIds.filter c.edgeLaunch).drop 4)]

/-! ## Checks 7 and 8: eyes (R9, R10, R28, R87, R104) -/

/-- The configured kind of a node position. -/
def FlumeConfig.nodeKind (c : FlumeConfig) (p : Nat) : Option NodeKind :=
  match p with
  | 0 => none
  | n + 1 => c.nodes[n]?

/-- An eye's input exists on its node's configured kind (R10). -/
def inputExists : Option NodeKind → Nat → Bool
  | some .general, i => decide (i ≤ 3)
  | some .berth, i | some .brake, i => decide (i ≤ 1)
  | none, _ => false

/-- An edge's eye exists, is no other edge's, and carries a tag flag only on input 0 of a BERTH node (R9, R10). Of the edges
that share one eye the lowest passes, and the next one is the item that fails (log entry 23). -/
def eyeOk (c : FlumeConfig) (e : Nat) : Bool :=
  (c.edges[e]?).any fun x =>
    inputExists (c.nodeKind x.eyeNode) x.eyeInput && c.edgeAtEye x.eyeNode x.eyeInput == some e
      && (!x.tag || (x.eyeInput == 0 && c.nodeKind x.eyeNode == some .berth))

/-- A weighing node is a BERTH node, and no other berth's (R87). Berths that share a node all fail, so the lowest index is
the item (log entry 23). -/
def weighingOk (c : FlumeConfig) (i : Nat) : Bool :=
  (c.weighingNode i).all fun p => c.nodeKind p == some .berth && c.berthsWeighedAt p == [i]

/-- A fin node is a BRAKE node, and no other run-out's (R104). Run-outs that share a node all fail, so the lowest index is
the item (log entry 23). -/
def finNodeOk (c : FlumeConfig) (r : Nat) : Bool :=
  (c.finNode r).all fun p => c.nodeKind p == some .brake && c.runoutsSensedAt p == [r]

def eyesFailure (c : FlumeConfig) : Option (Nat × Nat) :=
  firstFailure [
    failing 7 (c.edgeIds.filter fun e => !eyeOk c e),
    failing 7 (indices4.filter fun i => !weighingOk c i),
    failing 7 (indices4.filter fun r => !finNodeOk c r)]

/-- An entry eye of a segment stands on a higher input of one node than an exit eye of the segment (R28). -/
def eyeOrderOk (c : FlumeConfig) (g : Nat) : Bool :=
  (c.entries g).all fun a => (c.exits g).all fun b =>
    match c.edges[a]?, c.edges[b]? with
    | some x, some y => x.eyeNode != y.eyeNode || decide (x.eyeInput ≤ y.eyeInput)
    | _, _ => true

/-! ## Check 9: the run set (R94) -/

/-- An edge into the run set from outside it is a launch edge. -/
def runSetOk (c : FlumeConfig) (e : Nat) : Bool :=
  (c.edges[e]?).all fun x => !c.runSet.contains x.destination || c.runSet.contains x.source || x.launch

/-! ## Checks 10 and 11: the region map (R48, R100, R163) -/

/-- The entries of the map in the order of R163. -/
def RegionMap.entries (m : RegionMap) : List MapEntry := [m.release, m.route, m.fin, m.speed, m.roster, m.ring] ++ m.windows

/-- Two stretches of addresses overlap. -/
def overlap (a b : MapEntry) : Bool := decide (a.base < b.base + b.size ∧ b.base < a.base + a.size)

/-- The service page as a stretch of addresses (R164). -/
def servicePage : MapEntry := ⟨Config.statusBase, 4096⟩

def powerOfTwo (n : Nat) : Bool := n != 0 && (n &&& (n - 1)) == 0

/-- A present entry's size and base, and that it overlaps no other present entry and not the service page. Entries that
overlap all fail, so the lowest number is the item (log entry 23). -/
def entryOk (es : List MapEntry) (i : Nat) (x : MapEntry) : Bool :=
  powerOfTwo x.size && within 16 65536 x.size && x.base % x.size == 0 && !overlap x servicePage
    && (List.range es.length).all fun j => j == i || (es[j]?).all fun y => y.size == 0 || !overlap x y

/-- What an entry of its name must be beside: ROSTER, REPORT-RING and the windows. -/
def entryKindOk (c : FlumeConfig) (i : Nat) (x : MapEntry) : Bool :=
  match i with
  | 4 => x.size == 1024
  | 5 => powerOfTwo c.ringCount && x.size == 16 * c.ringCount
  | 6 | 7 | 8 | 9 => x.size == 0 || (x.size == 32 && (c.berthSegment (i - 6)).isSome)
  | _ => true

/-- An entry of the map stands as R163 and R100 require. -/
def mapEntryOk (c : FlumeConfig) (i : Nat) : Bool :=
  (c.map.entries[i]?).all fun x => (x.size == 0 || entryOk c.map.entries i x) && entryKindOk c i x

/-- A bank is present and covers every word that the configuration binds in it. -/
def bankOk (c : FlumeConfig) (b : Bank) : Bool :=
  (c.boundWords b).all fun w => decide (4 * w.index + 4 ≤ (c.map.bank b).size)

/-! ## Check 12: profiles (R105) -/

/-- Times strictly increase and stages do not increase. -/
def profileOk : List ProfileStep → Bool
  | a :: b :: rest => decide (a.time < b.time) && decide (b.stage ≤ a.stage) && profileOk (b :: rest)
  | [_] | [] => true

/-! ## Validation (R183) -/

/-- Checks 1 to 5: the header, and every field in its range. For a commit the length is the directive's. -/
def formFailure (bs : List Byte) (commit : Option Nat) : Option (Nat × Nat) :=
  let n := imageLength bs
  firstFailure [
    failingIf 1 (fieldAt bs 0 4 != imageMarker),
    failingIf 2 (fieldAt bs 4 2 != 1),
    failingIf 3 (n % 4 != 0 || !within headerBytes Config.imageLimit n || commit.any (· != n)),
    failingIf 4 (crc16 ((bs.drop headerBytes).take (n - headerBytes)) != imageCrc bs),
    rangeFailure bs]

/-- Checks 6 to 13: what the configuration that the image spells must keep. The ten entries of the map count from 0 as items
of check 10 (log entry 23). -/
def layoutFailure (c : FlumeConfig) : Option (Nat × Nat) :=
  firstFailure [
    graphFailure c,
    eyesFailure c,
    failing 8 (c.segmentIds.filter fun g => !eyeOrderOk c g),
    failing 9 (c.edgeIds.filter fun e => !runSetOk c e),
    failing 10 ((List.range 10).filter fun i => !mapEntryOk c i),
    failing 11 ((List.range 4).filter fun i => !bankOk c (([Bank.release, .route, .fin, .speed]).getD i .release)),
    failing 12 ([0, 1, 2].filter fun k => !profileOk (([c.profiles.light, c.profiles.medium, c.profiles.heavy]).getD k [])),
    failingIf 13 (!(decide (0 < c.t1 ∧ c.t1 < c.t2 ∧ c.t2 ≤ 2000)))]

/-- The outcome of a validation: the image, or the check and the item that refuse it. -/
inductive Validation where
  | valid (image : Image)
  | invalid (check item : Nat)
  deriving DecidableEq, Repr

/-- R183: the thirteen checks in order; checks 6 to 13 read only an image that has passed the earlier ones. -/
def validate (bs : List Byte) (commit : Option Nat) : Validation :=
  match formFailure bs commit with
  | some (n, i) => .invalid n i
  | none =>
    match layoutFailure (configOf bs) with
    | some (n, i) => .invalid n i
    | none => .valid ⟨configOf bs, imageCrc bs, bs.take (imageLength bs)⟩

/-- The bytes that LOADING reads from the store: the header, and the body if the length field lies from 16 to 2304 (R184). -/
def storeImage (store : Memory) : List Byte :=
  let header := Memory.readBytes store 0 headerBytes
  if within headerBytes Config.imageLimit (imageLength header) then Memory.readBytes store 0 (imageLength header) else header

end Sys2Proof.Machine
end

