-- ==== Sys2Proof/Machine/Take.lean ====
section
/-!
DEFINITION. Installing a configuration at LOADING and at a take (R184, R187), entries into STOPPED (R146), the end of a
discovery (R133), the save to the store (R188, R189).
-/

namespace Sys2Proof.Machine

/-! ## Installing tables -/

/-- The model of a configuration: SOUND empty segments, unknown eyes, no reservation, every boat ABSENT with a clear STAY
copy (R20, R21). -/
def emptyModel (c : FlumeConfig) : RideTracker :=
  { segments := c.segments.map fun _ => ⟨none, []⟩
    eyes := c.edges.map fun _ => ⟨.unknown, none⟩
    reservations := []
    roster := List.replicate Config.boatCount .vacant }

/-- The berth records and the pacer of a configuration (R88, R99). -/
def freshBerths (c : FlumeConfig) : BerthUnit :=
  { berths := (indices4.filter fun i => (c.berthSegment i).isSome).map BerthLive.start
    pacer := some { interval := c.launchInterval, buffer := c.launchInterval, lastLaunch := none, reached := true
                    runLoad := 0, stage1 := true, stage2 := decide (0 < c.runMax) } }

/-- The run-out and conveyor records and the profiles of a configuration (R104, R105, R114). -/
def freshBrakes (c : FlumeConfig) : BrakeUnit :=
  { runouts := (indices4.filter fun r => (c.runoutSegment r).isSome).map fun r =>
      { index := r, floor := 0, feedback := .none, timer := .idle, waitingLift := none }
    conveyors := (indices4.filter fun i => (c.liftSegment i).isSome).map fun i =>
      { index := i, stalled := false, stopWaiting := false }
    active := c.profiles
    buffer := c.profiles
    pending := false }

/-- The expected kind of each position is set from a configuration (R121). -/
def expectKinds (c : FlumeConfig) (nodes : List NodeEntry) : List NodeEntry :=
  nodes.zipIdx.map fun (n, i) => { n with expected := c.nodes[i]? }

/-- Every block's tables are built from a configuration, the shadows are unknown, the ring is reset (R50, R182, R184). At
LOADING this is the event that reads the store, so the map has its entries from then on, still within LOADING (log entry
42). -/
def install (c : FlumeConfig) (s : State) : State :=
  let s := s.setLoader { s.loader with active := some c }
  let s := s.setVerdict { shadows := .unknown, last := none }
  let s := s.setTracker (emptyModel c)
  let s := s.setHold { entries := [] }
  let s := s.setBerth (freshBerths c)
  let s := s.setBrake (freshBrakes c)
  let s := s.setLine { s.line with nodes := expectKinds c s.line.nodes }
  s.setReport { assigned := 0, consumer := 0, published := 0, gap := false }

/-- The images of LOADING and of a take: every roster record with its STAY word cleared, and the whole status page. -/
def askPage (s : State) : State := eachOf (fun i s => s.askImage i false) pageItems s
def askRosters (s : State) : State := eachOf (fun b s => s.askImage (.roster b) true) boatNumbers s

/-! ## LOADING (R184) -/

/-- The result area's image is asked for: LOADING writes it as zero (R174). -/
def askResult (s : State) : State := s.askImage .result false

/-- The image in the store is valid: the tables are built, the images and the safe writes of LOADING are queued. -/
def loadValid (image : Image) (s : State) : State :=
  let s := install image.config s
  let s := s.setLoader { s.loader with activeCrc := image.crc, source := .store, phase := .installed }
  initialWrites (askResult (askPage (askRosters s)))

/-- The image is invalid: its failure is recorded, and the status page and the result area are written. -/
def loadInvalid (check item : Nat) (s : State) : State :=
  askResult (askPage (s.setLoader { s.loader with failure := (check, item), phase := .invalid }))

/-- The read of the store completes (R184). -/
def loadStore (s : State) : State :=
  match validate (storeImage s.loader.store) none with
  | .valid image => loadValid image s
  | .invalid check item => loadInvalid check item s

/-- Every initial image and safe write of LOADING has completed (R144). -/
def State.loadingDone (s : State) : Bool :=
  s.passage.motion.isEmpty && s.passage.port.isNone && s.passage.upkeep.isEmpty

/-- R144, R184: LOADING ends. -/
def endLoading (s : State) : State :=
  let valid := s.loader.phase == .installed
  let s := s.setLoader { s.loader with phase := .finished }
  if valid then
    let s := s.callReport (.config .loaded 0 0 s.loader.activeCrc 0)
    startDiscovery (reportState .loading .endOfLoading (s.enterState (.offline .discovering)))
  else s.enterState (.offline .noConfig)

/-! ## The configuration take (R187) -/

/-- A motion write is left behind by a take: it goes to its old address and changes no shadow (R84). -/
def MotionWrite.leaveBehind (m : MotionWrite) : MotionWrite := { m with oldMap := true }

/-- A request that a take withdraws: a roster record or a report record (R172). -/
def UpkeepRequest.withdrawnByTake : UpkeepRequest → Bool
  | .image (.roster _) _ | .record .. => true
  | .image _ _ | .argument _ | .staging .. => false

/-- What a take does to the arbiter's classes as the new map is installed (R84, R172). -/
def leaveOldMap (s : State) : State :=
  s.setPassage { s.passage with
    motion := s.passage.motion.map MotionWrite.leaveBehind
    port := s.passage.port.map MotionWrite.leaveBehind
    upkeep := s.passage.upkeep.filter fun u => !u.withdrawnByTake }

/-- The configuration block after a take; the save of the image starts at page 0 (R179, R188). -/
def commitBlock (image : Image) (s : State) : State :=
  s.setLoader { s.loader with
    activeCrc := image.crc, source := .commit, pendingImage := none, save := .saving 0 s.clock image.bytes image.crc }

/-- The part writes 0 to the producer and the consumer index word as the ring is reset (R182). -/
def askIndices (s : State) : State := (s.askImage .producer false).askImage .consumer false

/-- R187: a configuration take, in the order of its steps. -/
def takeImage (image : Image) (s : State) : State :=
  let previous := s.ride.state
  let s := safeWrites (s.enterState (.offline .discovering))
  let s := askIndices (commitBlock image (install image.config (leaveOldMap s)))
  let s := reportState previous .configTake (s.callReport (.config .taken 0 0 image.crc 0))
  askPage (askRosters (startDiscovery (initialWrites s)))

/-! ## Entries into STOPPED (R146) -/

/-- An entry into STOPPED that is not diverted. -/
def stopAt (o : Occasion) (s0 : State) : State :=
  let s := s0.enterState .stopped
  let s := pacerWork s0 (copyPaceBuffer s)
  let s := if s.brake.pending then takeProfiles s else s
  reportState s0.ride.state o s

/-- R146: an entry into STOPPED, diverted to a take while an image is pending, and from OFFLINE(DISCOVERING) to TRIPPED
while CTRL-RESET-SENSE is asserted. -/
def enterStopped (o : Occasion) (s : State) : State :=
  match s.loader.pendingImage with
  | some image => takeImage image s
  | none =>
    if s.ride.state = .offline .discovering && s.ride.senseLevel then tripAction .controllerReset .none 0 s
    else stopAt o s

/-! ## The end of a discovery (R133) -/

/-- The lowest position, among those both discovered and configured, whose kinds differ (R133). -/
def State.kindMismatch (s : State) (count : Nat) : Option Nat :=
  s.lowestNode (s.config.positions.filter (decide <| · ≤ count)) fun n => n.expected != n.discovered

/-- The result of a RESTART-LINE in progress (R134). -/
def answerRestart (detail : Nat) (s : State) : State :=
  match s.directive.long with
  | some (.restartLine tag) =>
    (s.setDirective { s.directive with long := none }).answer tag DirectiveKind.restartLine.code .done none [detail]
  | some (.commit ..) | none => s

/-- The discovery matches: the line is UP, the ride may enter STOPPED, and round 0 begins. The watch for a line that stands
low begins now: a line that is low already has stood low from here (R128, log entry 37). -/
def discoveryMatches (count : Nat) (s : State) : State :=
  let s := s.setLine { s.line with state := .up, lowSince := s.line.lowSince.map fun _ => s.clock, slot := none }
  let s := eachOf (fun p s => s.setNode p fun n => { n with state := .active, misses := 0 }) s.config.positions s
  let s := if s.ride.state = .offline .discovering then enterStopped .lineUp s else s
  if s.line.state = .up then
    sendRound 0 (s.clock + Config.roundMs) (answerRestart detailLineUp (s.callReport (.line .up .none count)))
  else s

/-- The discovery does not match: the line is FAILED, with the first failure as detail. -/
def discoveryFails (cause : LineCause) (detail : Nat) (s : State) : State :=
  let previous := s.ride.state
  let s := s.setLine { s.line with state := .failed, tx := .released }
  let s := if previous = .offline .discovering then
      reportState previous .lineFailed (s.enterState (.offline .lineFailed))
    else s
  answerRestart detailLineFailed (s.callReport (.line .failed cause detail))

/-- R133: enumeration ends with a discovered count. -/
def endDiscovery (count : Nat) (s : State) : State :=
  let s := s.setLine { s.line with discovery := .idle }
  match s.kindMismatch count with
  | some p => discoveryFails .kindMismatch p s
  | none =>
    if count = s.config.nodes.length then discoveryMatches count s else discoveryFails .countMismatch count s

/-- R132: an answer to the query for a position is taken. -/
def takeAnswer (p : Nat) (frame : List Byte) (s : State) : State :=
  let s := s.setNode p fun n => { n with discovered := answerKind frame, serial := answerSerial frame }
  if p = Config.positionCount then endDiscovery p s else sendQuery (p + 1) s

/-! ## The save (R188, R189) -/

/-- A page of the image is in the store: the next page is sent, or the save is SAVED (R188). The store holds a page from its
acknowledgement on, and nothing of one that RESET or a take finds unacknowledged (R189, log entry 47). -/
def savePage (page : Nat) (image : List Byte) (crc : Nat) (s : State) : State :=
  let bytes := (image.drop (Config.pageBytes * page)).take Config.pageBytes
  let store := Memory.writeBytes s.loader.store (Config.pageBytes * page) bytes
  if image.length ≤ Config.pageBytes * (page + 1) then
    (s.setLoader { s.loader with store := store, save := .saved }).callReport (.config .saved 0 0 crc 0)
  else s.setLoader { s.loader with store := store, save := .saving (page + 1) s.clock image crc }

/-- A page goes unacknowledged (R189). -/
def failSave (page crc : Nat) (s : State) : State :=
  (s.setLoader { s.loader with save := .failed page }).callReport (.config .saveFailed 0 0 crc page)

end Sys2Proof.Machine
end

