-- ==== Sys2Proof/Machine/Directives.lean ====
section
/-!
DEFINITION. The twelve directives (10.1 and the owning rules) and the Directive Unit: BUSY, the trigger, the argument phase
and the dispatch (R174 to R177).
-/

namespace Sys2Proof.Machine

/-! ## Results (R177) -/

/-- A directive being answered: its tag and kind. -/
structure Asked where
  tag  : BitVec 16
  kind : DirectiveKind
  deriving DecidableEq, Repr

def Asked.done (q : Asked) (detail : List Nat) (s : State) : State := s.answer q.tag q.kind.code .done none detail
def Asked.refuse (q : Asked) (r : Reason) (detail : List Nat) (s : State) : State :=
  s.answer q.tag q.kind.code .refused (some r) detail
def Asked.invalid (q : Asked) (s : State) : State := s.answer q.tag q.kind.code .invalid (some .badArguments) []

/-- No configuration is in effect (R145). -/
def State.noConfig (s : State) : Bool := s.ride.state == .offline .noConfig

/-- STOPPED or TRIPPED (R18, R19). -/
def State.atRest (s : State) : Bool := s.ride.state == .stopped || s.ride.state == .tripped

/-! ## START-RIDE, STOP-RIDE, STOP-NOW (R154 to R156) -/

/-- The pacer's interval clock is made saturated (R99). -/
def saturatePacer (s : State) : State :=
  s.setBerth { s.berth with pacer := s.berth.pacer.map fun p => { p with lastLaunch := none, reached := true } }

/-- The ride goes from STOPPED to RUNNING. -/
def startRunning (s0 : State) : State :=
  let s := startDwells (saturatePacer (s0.enterState .running))
  handOn s0 (reportState .stopped .startRide s)

/-- The lowest position whose sustain result is FAILED. -/
def State.lowestFailed (s : State) : Option Nat := s.lowestNode nodePositions fun n => n.result == .failed

def startRide (q : Asked) (args : List Word) (s : State) : State :=
  if args ≠ [] then q.invalid s
  else if s.ride.state ≠ .stopped then q.refuse .wrongState [] s
  else if s.ride.drill.isSome then q.refuse .drillActive [] s
  else match s.lowestFailed with
    | some p => q.refuse .sustainFailed [p] s
    | none => q.done [] (startRunning s)

def stopRide (q : Asked) (args : List Word) (s : State) : State :=
  if args ≠ [] then q.invalid s
  else if s.ride.state ≠ .running then q.refuse .wrongState [] s
  else q.done [] (enterStopped .stopRide (purge s))

/-- The ride states in which STOP-NOW raises its cause. -/
def State.haltable (s : State) : Bool := s.running || s.atRest

/-- STOP-NOW. Where it aborts a sustain drill, the drill's ABORTED result comes first, and its own DONE stands (log entry 13). -/
def stopNow (q : Asked) (args : List Word) (s : State) : State :=
  if args ≠ [] then q.invalid s
  else if !s.haltable then q.refuse .wrongState [] s
  else q.done [] (raiseCause .haltRequest .none 0 s)

/-! ## RESET-TRIP (R157) -/

/-- The lowest LOST position, edge with a FAULT eye, position with an OPEN estop, FAULTED segment. -/
def State.lowestLost (s : State) : Option Nat := s.lowestNode nodePositions fun n => n.state == .lost
def State.lowestFaultEye (s : State) : Option Nat := s.config.edgeIds.find? fun e => (s.eye e).state == .fault
def State.lowestOpenEstop (s : State) : Option Nat := s.lowestNode nodePositions fun n => n.estopOpen
def State.lowestFaulted (s : State) : Option Nat := s.config.segmentIds.find? s.faulted

/-- The first of RESET-TRIP's conditions that fails, with its detail. -/
def State.resetBlocked (s : State) : Option (Reason × Nat) :=
  if s.line.state ≠ .up then some (.lineNotUp, s.line.state.code)
  else match s.lowestLost, s.lowestFaultEye, s.lowestOpenEstop, s.lowestFaulted with
    | some p, _, _, _ => some (.nodeLost, p)
    | none, some e, _, _ => some (.eyeFault, e)
    | none, none, some p, _ => some (.estopOpen, p)
    | none, none, none, some g => some (.segmentFaulted, g)
    | none, none, none, none => if s.ride.senseLevel then some (.controllerInReset, 0) else none

def resetTrip (q : Asked) (args : List Word) (s : State) : State :=
  if args ≠ [] then q.invalid s
  else if s.ride.state ≠ .tripped then q.refuse .wrongState [] s
  else match s.resetBlocked with
    | some (r, d) => q.refuse r [d] s
    | none => q.done [] (enterStopped .resetTrip s)

/-! ## DRILL (R158, R159) -/

def drillTrip (q : Asked) (s : State) : State :=
  q.done [] ((raiseCause .drill .none 0 s).callReport (.drill false .done 0 []))

/-- The sustain drill is accepted: every result UNTESTED, the next ten rounds withheld (R139). -/
def drillSustain (q : Asked) (s : State) : State :=
  let s := s.setLine { s.line with nodes := s.line.nodes.map fun n => { n with result := .untested } }
  s.setRide { s.ride with drill := some ⟨q.tag, .withheld, Config.withheldRounds⟩ }

def drill (q : Asked) (args : List Word) (s : State) : State :=
  match args with
  | [k] =>
    if 1 < k.toNat then q.invalid s
    else if s.ride.state ≠ .stopped then q.refuse .wrongState [] s
    else if k.toNat = 0 then drillTrip q s
    else drillSustain q s
  | [] | _ :: _ :: _ => q.invalid s

/-! ## ADD-BOAT, WITHDRAW-BOAT, RESEAT (R17 to R19) -/

/-- A boat number (R13). -/
def boatNumber (b : Nat) : Bool := within 1 Config.boatCount b

/-- A segment identifier that is out of range, or that the configuration does not have; with no configuration an identifier
in range leaves the state to be judged (R17, R19, R191, log entry 22). -/
def State.unknownSegment (s : State) (g : Nat) : Bool :=
  decide (Config.segmentLimit ≤ g) || s.configured && decide (s.config.segments.length ≤ g)

/-- The boat joins the tail of the segment's queue with its ABSENT values and its STAY copy (R17). -/
def placeBoat (b g : Nat) (s0 : State) : State :=
  let s := s0.setBoat b fun r => { BoatRecord.vacant with stay := r.stay }
  let s := s.arrive b g
  handOn s0 (s.setQueue g (s.queue g ++ [b]))

def addBoat (q : Asked) (args : List Word) (s : State) : State :=
  match args with
  | [x, y] =>
    let b := x.toNat
    let g := y.toNat
    if !boatNumber b || s.unknownSegment g then q.invalid s
    else if s.ride.state ≠ .stopped then q.refuse .wrongState [] s
    else if (s.boat b).status ≠ .absent then q.refuse .boatInService [] s
    else if s.faulted g then q.refuse .segmentFaulted [] s
    else if !s.hasRoom g then q.refuse .noRoom [] s
    else q.done [] (placeBoat b g s)
  | [] | [_] | _ :: _ :: _ :: _ => q.invalid s

/-- The boat leaves its queue, its reservation is cancelled, its record returns to its ABSENT values (R18). -/
def removeBoat (b : Nat) (s0 : State) : State :=
  let s := (s0.leaveQueue b).dropReservations (·.boat == b)
  handOn s0 (s.setBoat b fun r => { BoatRecord.vacant with stay := r.stay })

def withdrawBoat (q : Asked) (args : List Word) (s : State) : State :=
  match args with
  | [x] =>
    let b := x.toNat
    if !boatNumber b then q.invalid s
    else if !s.atRest then q.refuse .wrongState [] s
    else if (s.boat b).status = .absent then q.refuse .boatAbsent [] s
    else q.done [] (removeBoat b s)
  | [] | _ :: _ :: _ => q.invalid s

/-- A boat that stood in the reseated segment and is not listed becomes MISSING (R19 step 3). -/
def missBoat (b : Nat) (s : State) : State :=
  s.setBoat b fun r =>
    { r with status := .missing, segment := none, position := 0, dwell := .none, nextStep := none }

/-- R19: the steps of a RESEAT, as one change. -/
def reseatSegment (g : Nat) (boats : List Nat) (s0 : State) : State :=
  let former := s0.queue g
  let s := eachOf (fun b s => s.leaveQueue b) boats s0
  let s := s.dropReservations fun r =>
    boats.contains r.boat || s.config.edgeFrom r.edge g || s.config.edgeInto r.edge g
  let s := eachOf missBoat (former.filter fun b => !boats.contains b) s
  let s := eachOf (fun b s => (s.arrive b g).setBoat b fun r => { r with identityDoubt := false }) boats s
  let s := s.setQueue g boats
  handOn s0 (reseatWork g (s.setSegment g fun l => { l with fault := none }))

/-- The first listed boat that is ABSENT. -/
def State.firstAbsent (s : State) (boats : List Nat) : Option Nat := boats.find? fun b => (s.boat b).status == .absent

def reseat (q : Asked) (args : List Word) (s : State) : State :=
  match args with
  | x :: y :: list =>
    let g := x.toNat
    let boats := list.map (·.toNat)
    if s.unknownSegment g || 8 < y.toNat || boats.length ≠ y.toNat || !boats.all boatNumber || !boats.Nodup then q.invalid s
    else if !s.atRest then q.refuse .wrongState [] s
    else if (s.config.segment g).capacity < boats.length then q.refuse .overCapacity [] s
    else match s.firstAbsent boats with
      | some b => q.refuse .boatAbsent [b] s
      | none => q.done [] (reseatSegment g boats s)
  | [] | [_] => q.invalid s

/-! ## SET-PACE (R98) -/

/-- The pacer's interval buffer takes a value. -/
def bufferPace (v : Nat) (s : State) : State :=
  s.setBerth { s.berth with pacer := s.berth.pacer.map fun p => { p with buffer := v } }

def setPace (q : Asked) (args : List Word) (s : State) : State :=
  match args with
  | [x] =>
    if !within 1000 60000 x.toNat then q.invalid s
    else if s.noConfig then q.refuse .wrongState [] s
    else if s.ride.state = .stopped then
      q.done [detailApplied] (handOn s (copyPaceBuffer (bufferPace x.toNat s)))
    else q.done [detailBuffered] (bufferPace x.toNat s)
  | [] | _ :: _ :: _ => q.invalid s

/-! ## SET-PROFILE (R109) -/

/-- The steps that argument words carry, time then stage. -/
def stepsOf : List Word → List ProfileStep
  | t :: g :: rest => ⟨t.toNat, g.toNat⟩ :: stepsOf rest
  | [_] | [] => []

/-- One class's profile is replaced (0 LIGHT, 1 MEDIUM, 2 HEAVY). -/
def Profiles.put (p : Profiles) (k : Nat) (steps : List ProfileStep) : Profiles :=
  match k with
  | 0 => { p with light := steps }
  | 1 => { p with medium := steps }
  | _ => { p with heavy := steps }

/-- The steps are in range, their times strictly increase, their stages do not increase. -/
def stepsOk (steps : List ProfileStep) : Bool :=
  steps.all (fun x => within 0 60000 x.time && within 0 4 x.stage) && profileOk steps

/-- The class's buffer is written and the pending flag set; the brake block is rewritten whatever the steps (R110). -/
def bufferProfile (k : Nat) (steps : List ProfileStep) (s : State) : State :=
  (s.setBrake { s.brake with buffer := s.brake.buffer.put k steps, pending := true }).askImage .brake false

def setProfile (q : Asked) (args : List Word) (s : State) : State :=
  match args with
  | k :: n :: rest =>
    let steps := stepsOf rest
    if 2 < k.toNat || !within 1 4 n.toNat || rest.length ≠ 2 * n.toNat || !stepsOk steps then q.invalid s
    else if s.noConfig then q.refuse .wrongState [] s
    else if s.ride.state = .stopped || s.runoutsQuiet then
      q.done [detailApplied] (takeProfiles (bufferProfile k.toNat steps s))
    else q.done [detailBuffered] (bufferProfile k.toNat steps s)
  | [] | [_] => q.invalid s

/-! ## COMMIT-CONFIG (R185, R186) -/

/-- The reads of the staging area up to a length, bursts of up to 4 words, in ascending order. -/
def stagingReads (length : Nat) : List UpkeepRequest :=
  (List.range ((length + 15) / 16)).map fun i => .staging (16 * i) (min 4 ((length - 16 * i) / 4))

def commitConfig (q : Asked) (args : List Word) (s : State) : State :=
  match args with
  | [x] =>
    let n := x.toNat
    if n % 4 ≠ 0 || !within 16 Config.imageLimit n then q.invalid s
    else
      let s := s.setDirective { s.directive with long := some (.commit q.tag n []) }
      s.setPassage { s.passage with upkeep := s.passage.upkeep ++ stagingReads n }
  | [] | _ :: _ :: _ => q.invalid s

/-- R186: a valid image becomes pending, or replaces the pending one, and the configuration block is rewritten (R179). -/
def pendImage (image : Image) (s : State) : State :=
  let old := s.loader.pendingImage
  let s := s.setLoader { s.loader with pendingImage := some image }
  let s := match old with
    | none => s.callReport (.config .pending 0 0 image.crc 0)
    | some x => s.callReport (.config .pendingReplaced 0 0 x.crc image.crc)
  s.askImage .config false

/-- R185: a commit refused as invalid; its record carries the CRC of the refused image's header (log entry 26).
The failure replaces the last one, and the configuration block is rewritten (R179). -/
def refuseCommit (q : Asked) (check item crc : Nat) (s : State) : State :=
  let s := s.setLoader { s.loader with failure := (check, item) }
  q.refuse .configInvalid [check, item] ((s.callReport (.config .refused check item crc 0)).askImage .config false)

/-- R185: the staged image is validated and decided by the ride state at this event. -/
def decideCommit (tag : BitVec 16) (length : Nat) (bytes : List Byte) (s : State) : State :=
  let q : Asked := ⟨tag, .commitConfig⟩
  let s := s.setDirective { s.directive with long := none }
  match validate bytes (some length) with
  | .invalid check item => refuseCommit q check item (imageCrc bytes) s
  | .valid image =>
    if s.running || s.ride.state = .tripped then q.done [detailPending] (pendImage image s)
    else q.done [detailTaken] (takeImage image s)

/-- The words of a staging read reach the commit in progress; after the last one the image is decided. -/
def takeStaging (read : List Byte) (s : State) : State :=
  match s.directive.long with
  | some (.commit tag n sofar) =>
    let all := sofar ++ read
    if n ≤ all.length then decideCommit tag n all s
    else s.setDirective { s.directive with long := some (.commit tag n all) }
  | some (.restartLine _) | none => s

/-! ## RESTART-LINE (R134) -/

/-- From OFFLINE(LINE-FAILED) the ride moves to OFFLINE(DISCOVERING) as the discovery starts. -/
def leaveFailed (s : State) : State :=
  if s.ride.state = .offline .lineFailed then
    reportState (.offline .lineFailed) .restartLine (s.enterState (.offline .discovering))
  else s

def restartLine (q : Asked) (args : List Word) (s : State) : State :=
  if args ≠ [] then q.invalid s
  else if s.ride.state ≠ .tripped && s.ride.state ≠ .offline .lineFailed then q.refuse .wrongState [] s
  else
    let s := startDiscovery (leaveFailed s)
    s.setDirective { s.directive with long := some (.restartLine q.tag) }

/-! ## The Directive Unit (R174 to R176) -/

/-- R176: a directive is dispatched to the rule that owns it. -/
def dispatch (k : DirectiveKind) (tag : BitVec 16) (args : List Word) (s : State) : State :=
  match k with
  | .startRide => startRide ⟨tag, k⟩ args s
  | .stopRide => stopRide ⟨tag, k⟩ args s
  | .stopNow => stopNow ⟨tag, k⟩ args s
  | .resetTrip => resetTrip ⟨tag, k⟩ args s
  | .drill => drill ⟨tag, k⟩ args s
  | .addBoat => addBoat ⟨tag, k⟩ args s
  | .withdrawBoat => withdrawBoat ⟨tag, k⟩ args s
  | .reseat => reseat ⟨tag, k⟩ args s
  | .setPace => setPace ⟨tag, k⟩ args s
  | .setProfile => setProfile ⟨tag, k⟩ args s
  | .commitConfig => commitConfig ⟨tag, k⟩ args s
  | .restartLine => restartLine ⟨tag, k⟩ args s

/-- A tag and a kind as in word 0 of a result (11.4). -/
def tagAndKind (tag : BitVec 16) (k : Nat) : Nat := tag.toNat + 65536 * k

/-- The kinds that a discovery answers BUSY. -/
def DirectiveKind.touchesLine : DirectiveKind → Bool
  | .commitConfig | .restartLine | .drill => true
  | .startRide | .stopRide | .stopNow | .resetTrip | .addBoat | .withdrawBoat | .reseat | .setPace | .setProfile => false

/-- What a discovery names in a BUSY result: the RESTART-LINE that started it, or 0 (R175). -/
def State.discoveryTag (s : State) : Nat :=
  match s.directive.long with
  | some (.restartLine tag) => tagAndKind tag DirectiveKind.restartLine.code
  | some (.commit ..) | none => 0

/-- R175: what makes the Directive Unit busy for a kind, as the detail of the BUSY result. Where several rows of
its table apply, the first names the directive: the argument phase, COMMIT-CONFIG, the drill, the discovery (log entry
50). -/
def State.busyFor (s : State) (k : DirectiveKind) : Option Nat :=
  if k = .stopNow then none
  else match s.directive.argument, s.directive.long, s.ride.drill with
    | some a, _, _ => some (tagAndKind a.tag a.kind.code)
    | none, some (.commit tag _ _), _ => some (tagAndKind tag DirectiveKind.commitConfig.code)
    | none, some (.restartLine _), some d | none, none, some d =>
      if k ≠ .startRide then some (tagAndKind d.tag DirectiveKind.drill.code)
      else if s.discovering && k.touchesLine then some s.discoveryTag else none
    | none, some (.restartLine _), none | none, none, none =>
      if s.discovering && k.touchesLine then some s.discoveryTag else none

/-- A directive with its arguments at hand: answered BUSY, or dispatched (R175, R176). -/
def request (k : DirectiveKind) (tag : BitVec 16) (args : List Word) (s : State) : State :=
  match s.busyFor k with
  | some d => s.answer tag k.code .busy none [d]
  | none => dispatch k tag args s

/-- A trigger enters the argument phase: one read for each argument word (R176). -/
def startArguments (k : DirectiveKind) (tag : BitVec 16) (count : Nat) (s : State) : State :=
  let s := s.setDirective { s.directive with argument := some ⟨tag, k, count, []⟩ }
  s.setPassage { s.passage with upkeep := s.passage.upkeep ++ (List.range count).map fun i => .argument (i + 1) }

/-- A trigger of a known kind (R174 steps 3 and 4): STOP-NOW's arguments are never read. -/
def triggerKnown (k : DirectiveKind) (tag : BitVec 16) (count : Nat) (s : State) : State :=
  if k = .stopNow || count = 0 then request k tag (List.replicate count 0) s
  else match s.busyFor k with
    | some d => s.answer tag k.code .busy none [d]
    | none => startArguments k tag count s

/-- R174: the Directive Unit takes a trigger. -/
def takeTrigger (w : Word) (s : State) : State :=
  if triggerKind w = 0 then s
  else match DirectiveKind.ofCode (triggerKind w) with
    | none => s.answer (triggerTag w) (triggerKind w) .invalid (some .unknownKind) []
    | some k => triggerKnown k (triggerTag w) (triggerCount w) s

/-- R176: an argument word has been read; after the last one the directive is dispatched. -/
def takeArgument (w : Word) (s : State) : State :=
  match s.directive.argument with
  | none => s
  | some a =>
    let read := a.read ++ [w]
    if a.count ≤ read.length then dispatch a.kind a.tag read (s.setDirective { s.directive with argument := none })
    else s.setDirective { s.directive with argument := some { a with read := read } }

end Sys2Proof.Machine
end

