-- ==== Sys2Proof/Machine/MemoryPort.lean ====
section
/-!
DEFINITION. The memory port: the arbiter (R171), and the commands of its MOTION and UPKEEP classes and of the save:
MOTION_WRITE_GRANT, MOTION_WRITE_COMPLETE, REPORT_RECORD_WRITE, IMAGE_ITEM_WRITE, ARGUMENT_READ_COMPLETE,
STAGING_READ_COMPLETE, SAVE_PAGE_ACK, SAVE_PAGE_TIMEOUT.
-/

namespace Sys2Proof.Machine

/-! ## The arbiter (R171) -/

/-- The class whose oldest request the arbiter grants next. -/
inductive Grant where
  | none | motion | passage | upkeep
  deriving DecidableEq, Repr

/-- R171: no class while a motion write holds the port; else MOTION, UPKEEP after 16 grants of PASSAGE, PASSAGE, UPKEEP. -/
def PassageUnit.nextGrant (u : PassageUnit) : Grant :=
  if u.port.isSome then .none
  else if !u.motion.isEmpty then .motion
  else if !u.upkeep.isEmpty && decide (Config.upkeepPatience ≤ u.upkeepWait) then .upkeep
  else if u.access.isSome then .passage
  else if !u.upkeep.isEmpty then .upkeep
  else .none

/-- The UPKEEP request that the arbiter grants next, if that class is granted. -/
def State.upkeepGrant (s : State) : Option UpkeepRequest :=
  if s.passage.nextGrant = .upkeep then s.passage.upkeep.head? else none

/-- The oldest UPKEEP request is granted: it leaves its class, and the wait count returns to 0. -/
def grantUpkeep (s : State) : State :=
  s.setPassage { s.passage with upkeep := s.passage.upkeep.tail, upkeepWait := 0 }

/-- The controller's access is granted: the wait count rises while an UPKEEP request waits. -/
def grantPassage (s : State) : State :=
  s.setPassage { s.passage with
    access := none
    upkeepWait := if s.passage.upkeep.isEmpty then 0 else min (s.passage.upkeepWait + 1) Config.upkeepPatience }

/-! ## Motion writes (R81, R82) -/

/-- A fin write below the shadow or below the floor, a floor lift at or below the shadow, a speed write above the shadow
(R82, R108). -/
def State.unsafeNow (s : State) (m : MotionWrite) : Bool :=
  match s.shadow m.word with
  | none => false
  | some v =>
    match m.word.bank with
    | .fin =>
      decide (m.value < v) || decide (m.value < s.brakeFloor m.word.index) ||
        (m.origin == .floorLift m.word.index && decide (m.value ≤ v))
    | .speed => decide (v < m.value)
    | .release | .route => false

/-- R82: the check at the grant. A performance and a write to an old map's word are performed. -/
def State.discards (s : State) (m : MotionWrite) : Bool := m.entry?.isNone && !m.oldMap && s.unsafeNow m

/-- What the end of a motion write clears: the waiting lift that holds its value, the waiting stop (R108, R116). -/
def clearWaiting (m : MotionWrite) (s : State) : State :=
  match m.origin with
  | .floorLift r =>
    s.setRunout r fun x => { x with waitingLift := if x.waitingLift = some m.value then none else x.waitingLift }
  | .stallStop c => s.setConveyor c fun x => { x with stopWaiting := false }
  | .performance _ _ | .autoClose | .lapseClose | .safe => s

/-- The oldest motion write is granted: it is discarded, or it holds the port. -/
def grantMotion (m : MotionWrite) (s : State) : State :=
  let s1 := s.setPassage { s.passage with motion := s.passage.motion.tail }
  if s.discards m then clearWaiting m s1 else s1.setPassage { s1.passage with port := some m }

/-- MOTION_WRITE_GRANT (R82, R171). -/
def execMotionWriteGrant (s : State) : Host.Outcome State Fault Refusal :=
  match s.passage.motion with
  | m :: _ => event s (s.passage.nextGrant = .motion) (grantMotion m)
  | [] => .next s

/-- The HOLD-END PERFORMED report of a performance, and the rewrite of the hold queue image (R74). -/
def reportPerformed (m : MotionWrite) (s : State) : State :=
  match m.entry? with
  | some h => (reportHoldEnd h .performed none s).askImage .holdQueue false
  | none => s

/-- R81: a motion write completes. A write that a take left behind reaches its old address and nothing else (R84). -/
def completeMotion (m : MotionWrite) (s0 : State) : State :=
  let s := s0.setPassage { s0.passage with port := none }
  let s := s.setMemory (s.memory.writeWord m.addr (BitVec.ofNat 32 m.value))
  if m.oldMap then s
  else handOn s0 (reportPerformed m (clearWaiting m (s.storeShadow m.word m.value)))

/-- MOTION_WRITE_COMPLETE (R81). -/
def execMotionWriteComplete (s : State) : Host.Outcome State Fault Refusal :=
  match s.passage.port with
  | some m => event s true (completeMotion m)
  | none => .next s

/-! ## UPKEEP work (R172, R176, R181, R185) -/

/-- R181: the record's four words, then the producer index word; the published producer follows. -/
def writeRecord (slot : Nat) (gap : Bool) (time : Nat) (r : Report) (next : Nat) (s : State) : State :=
  let m := Memory.writeBytes s.memory (s.config.map.ring.base + 16 * slot) (recordBytes gap time r)
  let s := s.setMemory (Memory.writeWord m Config.producerAddr (BitVec.ofNat 32 next))
  s.setReport { s.report with published := next }

/-- REPORT_RECORD_WRITE (R181). -/
def execReportRecordWrite (s : State) : Host.Outcome State Fault Refusal :=
  match s.upkeepGrant with
  | some (.record slot gap time r next) => event s true fun s => writeRecord slot gap time r next (grantUpkeep s)
  | some (.image ..) | some (.argument _) | some (.staging ..) | none => .next s

/-- IMAGE_ITEM_WRITE (R172). -/
def execImageItemWrite (s : State) : Host.Outcome State Fault Refusal :=
  match s.upkeepGrant with
  | some (.image i clearStay) => event s true fun s => (grantUpkeep s).setMemory (writeItem s i clearStay)
  | some (.record ..) | some (.argument _) | some (.staging ..) | none => .next s

/-- ARGUMENT_READ_COMPLETE (R176). -/
def execArgumentReadComplete (s : State) : Host.Outcome State Fault Refusal :=
  match s.upkeepGrant with
  | some (.argument i) =>
    event s true fun s => takeArgument (s.memory.readWord (Config.directiveBase + 4 * i)) (grantUpkeep s)
  | some (.record ..) | some (.image ..) | some (.staging ..) | none => .next s

/-- STAGING_READ_COMPLETE (R185). -/
def execStagingReadComplete (s : State) : Host.Outcome State Fault Refusal :=
  match s.upkeepGrant with
  | some (.staging offset words) =>
    event s true fun s => takeStaging (Memory.readBytes s.memory (Config.stagingBase + offset) (4 * words)) (grantUpkeep s)
  | some (.record ..) | some (.image ..) | some (.argument _) | none => .next s

/-! ## The save (R188, R189) -/

/-- SAVE_PAGE_ACK (R188): within 20 ms of the page's sending. -/
def execSavePageAck (s : State) : Host.Outcome State Fault Refusal :=
  match s.loader.save with
  | .saving page sentAt image crc => event s (s.clock ≤ sentAt + Config.twentyMs) (savePage page image crc)
  | .idle | .saved | .failed _ => .next s

/-- SAVE_PAGE_TIMEOUT (R189). -/
def execSavePageTimeout (s : State) : Host.Outcome State Fault Refusal :=
  match s.loader.save with
  | .saving page sentAt _ crc => event s (sentAt + Config.twentyMs ≤ s.clock) (failSave page crc)
  | .idle | .saved | .failed _ => .next s

end Sys2Proof.Machine
end

