-- ==== Sys2Proof/Machine/ControllerPort.lean ====
section
/-!
DEFINITION. The controller port (09): CONTROLLER_ACCESS_ARRIVAL, and the ten rows by which a granted access ends. A row's
command acts when the arbiter grants the waiting access and the access is the row's (log entry 8).
-/

namespace Sys2Proof.Machine

/-! ## Port refusals (R169) -/

/-- The Passage Unit refuses an access on its own account, and the passage block's image is asked for. The block takes the
word that the access named, for a window its own word and not the roster word behind it (log entry 41). -/
def refusePort (a : Access) (r : Reason) (s : State) : State :=
  ((s.setPassage { s.passage with
    refusals := saturatingSucc s.passage.refusals
    lastRefusal := some ⟨s.clock, a.word, a.write, a.beats, r⟩ }).askImage .passage false).respondError a

/-! ## Reads (R52, R102, R103, R165, R167) -/

/-- The words that a read returns, each classified by its own address; every window is mapped at this grant. -/
def State.readWords (s : State) (a : Access) : List Word := a.words.map s.readMapped

/-- A read, single or burst; one that would run past the top of memory is refused whole. -/
def performRead (a : Access) (s : State) : State :=
  if a.pastTop then refusePort a .burst s else s.respondDone (s.readWords a)

/-! ## Plain and part-owned writes (R165, R166) -/

/-- The enabled lanes of one beat are stored. -/
def storeBeat (a : Access) (address : Nat) (w : Word) (s : State) : State :=
  s.setMemory (s.memory.writeLanes address a.lanes w)

/-- A single write by the class of its word, but for the rows that own a class: guarded, window and full snooped words. -/
def performWrite (a : Access) (s : State) : State :=
  match s.classify a.word with
  | .plain | .directiveArea | .staging => (storeBeat a a.word a.value s).respondDone []
  | .stay _ | .consumer | .trigger => refusePort a .partialWrite s
  | .rosterPart | .ring | .status | .resultArea => refusePort a .partOwned s
  | .guarded _ | .window .. => s

/-! ## Verdicts on the controller's writes (R54, R56, R66, R67) -/

/-- A verdict other than PASS replaces the last-verdict block and is reported, and the block's image is asked for (R66,
R67). -/
def recordVerdict (v : LastVerdict) (s : State) : State :=
  ((s.setVerdict { s.verdict with last := some v }).callReport (.verdict v)).askImage .lastVerdict false

/-- A refusal of the Verdict Unit. -/
def refuseGuarded (w : WordRef) (written : Word) (a : Access) (r : Reason) (boat : Nat) (s : State) : State :=
  (recordVerdict ⟨s.clock, w, written, .refuse, r, none, boat⟩ s).respondError a

/-- A value reaches a guarded word's memory and its shadow in the verdict's event (R53). -/
def storeGuarded (w : WordRef) (v : Nat) (s : State) : State :=
  (s.setMemory (s.memory.writeWord (s.config.wordAddr w) (BitVec.ofNat 32 v))).storeShadow w v

/-- A write given HOLD joins the tail of the list, or is refused HOLD-FULL (R59, R70). The VERDICT record, the last-verdict
block and the hold queue block are asked for in that order, as the worked example of 09 gives it. -/
def holdWrite (w : WordRef) (a : Access) (v : Nat) (amended : Bool) (r : Reason) (boat : Nat) (s : State) : State :=
  if Config.holdDepth ≤ s.hold.entries.length then refuseGuarded w a.value a .holdFull boat s
  else
    let h : HeldEntry := ⟨w, v, amended, s.clock, s.clock + s.config.holdLimit, r⟩
    let s := recordVerdict ⟨s.clock, w, a.value, .hold, r, some v, boat⟩ s
    (s.setEntries (s.hold.entries ++ [h])).respondDone []

/-- A reservation that a PASS creates joins the list (R58 step 11). -/
def reserve (r : Option Reservation) (s : State) : State :=
  match r with
  | some r => s.addReservation r
  | none => s

/-- The verdict on a write that has passed the form checks, and its effect (R54). -/
def takeVerdict (w : WordRef) (a : Access) (s : State) : State :=
  let v := a.value.toNat
  let boat := s.judgedBoat w v
  match s.judge w v with
  | .pass r => handOn s ((reserve r (storeGuarded w v s)).respondDone [])
  | .amend x r =>
    handOn s ((recordVerdict ⟨s.clock, w, a.value, .amend, r, some x, boat⟩ (storeGuarded w x s)).respondDone [])
  | .hold x amended r => holdWrite w a x amended r boat s
  | .refuse r => refuseGuarded w a.value a r boat s

/-- R56: the word's held entry is removed before the write is judged. -/
def supersede (w : WordRef) (s : State) : State :=
  match s.heldEntry w with
  | some h => endHeld h .superseded none s
  | none => s

/-- A single write to a guarded word: supersession, form checks, verdict (R55, R56). -/
def guardedWrite (w : WordRef) (a : Access) (s : State) : State :=
  let s := supersede w s
  match s.formCheck w a a.value with
  | some r => refuseGuarded w a.value a r 0 s
  | none => takeVerdict w a s

/-- The guarded write that an access to a bank word is. -/
def performGuarded (a : Access) (s : State) : State :=
  match s.classify a.word with
  | .guarded w => guardedWrite w a s
  | .plain | .rosterPart | .stay _ | .ring | .status | .consumer | .trigger | .directiveArea | .resultArea | .staging
  | .window .. => s

/-! ## Write bursts (R167) -/

/-- The first guarded word that a burst touches, with the data of its beat. -/
def State.firstGuarded (s : State) (a : Access) : Option (WordRef × Word) :=
  a.beatList.findSome? fun x =>
    match s.classify x.1 with
    | .guarded w => some (w, x.2)
    | .plain | .rosterPart | .stay _ | .ring | .status | .consumer | .trigger | .directiveArea | .resultArea | .staging
    | .window .. => none

/-- A burst touches a part-owned, snooped or window word. -/
def State.burstRefused (s : State) (a : Access) : Bool := a.beatList.any fun x => !(s.classify x.1).burstable

/-- Beats are stored one after the other. -/
def storeBeats (a : Access) (beats : List (Nat × Word)) (s : State) : State :=
  eachOf (fun x s => storeBeat a x.1 x.2 s) beats s

/-- A write burst: refused by the Verdict Unit or the port, or performed beat by beat. -/
def performBurst (a : Access) (s : State) : State :=
  if a.pastTop then refusePort a .burst s
  else match s.firstGuarded a with
    | some (w, v) => refuseGuarded w v a ((s.formCheck w a v).getD .burst) 0 s
    | none => if s.burstRefused a then refusePort a .burst s else (storeBeats a a.beatList s).respondDone []

/-! ## Snooped writes (R15, R168, R182) -/

/-- A boat's STAY copy is set for a value that is not zero (R15). -/
def takeStay (b : Nat) (w : Word) (s : State) : State := s.setBoat b fun r => { r with stay := w != 0 }

/-- A full-word write to a boat's STAY word, wherever it was addressed. -/
def storeStay (b target : Nat) (a : Access) (s : State) : State :=
  (takeStay b a.value (storeBeat a target a.value s)).respondDone []

/-- A full-word write to a STAY word of the roster region. -/
def performStay (a : Access) (s : State) : State :=
  match s.classify a.word with
  | .stay b => storeStay b a.word a s
  | .plain | .guarded _ | .rosterPart | .ring | .status | .consumer | .trigger | .directiveArea | .resultArea | .staging
  | .window .. => s

/-- The copy of the consumer index that a value written leaves: the value modulo N (R182). With no ring there is no N, and
the copy is a free value (log entry 12). -/
def State.consumerOf (s : State) (w : Word) : Nat :=
  if s.configured then w.toNat % s.config.ringCount else Config.consumerIndexWithoutRing w

/-- A full-word write to the consumer index word. -/
def performConsumer (a : Access) (s : State) : State :=
  let s := (storeBeat a a.word a.value s).respondDone []
  s.setReport { s.report with consumer := s.consumerOf a.value }

/-- A full-word write to the trigger word: the Directive Unit takes it at its completion (R174). -/
def performTrigger (a : Access) (s : State) : State :=
  takeTrigger a.value ((storeBeat a a.word a.value s).respondDone [])

/-! ## Windows (R101, R102, R170) -/

/-- A write to a window that stands for boat `b`. -/
def writeThroughWindow (b offset target : Nat) (a : Access) (s : State) : State :=
  match rosterClass offset with
  | .stay _ => if a.full then storeStay b target a s else refusePort a .partialWrite s
  | .plain | .guarded _ | .rosterPart | .ring | .status | .consumer | .trigger | .directiveArea | .resultArea | .staging
  | .window .. => refusePort a .partOwned s

/-- A single access to a window word, redirected to the roster record of the window's boat, or finding it vacant. -/
def performWindow (a : Access) (s : State) : State :=
  if !a.write then performRead a s
  else match s.classify a.word with
    | .window w o =>
      (match s.windowTarget w o with
       | some t => writeThroughWindow (s.windowBoat w) o t a s
       | none => refusePort a .windowVacant s)
    | .plain | .guarded _ | .rosterPart | .stay _ | .ring | .status | .consumer | .trigger | .directiveArea
    | .resultArea | .staging => s

/-! ## The granted access (R165, R173) -/

/-- The effect of a row on an access; in LOADING every access is refused unrecorded (R173). -/
def AccessRow.effect (row : AccessRow) (a : Access) (s : State) : State :=
  if s.ride.state = .loading then s.respondError a
  else match row with
    | .read => performRead a s
    | .write => performWrite a s
    | .burst => performBurst a s
    | .window => performWindow a s
    | .release | .route | .fin | .speed => performGuarded a s
    | .stay => performStay a s
    | .consumer => performConsumer a s
    | .trigger => performTrigger a s

/-- A row's command: the waiting access is granted, if the arbiter grants it and it is the row's. -/
def performRow (row : AccessRow) (s : State) : Host.Outcome State Fault Refusal :=
  match s.passage.access with
  | none => .next s
  | some a =>
    event s (decide (s.passage.nextGrant = .passage) && decide (s.rowOf a = row)) fun s => row.effect a (grantPassage s)

/-! ## The commands -/

/-- CONTROLLER_ACCESS_ARRIVAL (R161, R171): the access is held with WAIT; under RESET it ends at once (R173). The port
carries one access at a time. -/
def execControllerAccessArrival (a : Access) (s : State) : Host.Outcome State Fault Refusal :=
  if !a.wellFormed then .fault .unencodable
  else if s.resetAsserted then .next (s.respondError a)
  else event s s.passage.access.isNone fun s => s.setPassage { s.passage with access := some a, response := none }

/-- CONTROLLER_READ (R165). -/
def execControllerRead (s : State) : Host.Outcome State Fault Refusal := performRow .read s

/-- CONTROLLER_WRITE (R165). -/
def execControllerWrite (s : State) : Host.Outcome State Fault Refusal := performRow .write s

/-- WRITE_BURST (R167). -/
def execWriteBurst (s : State) : Host.Outcome State Fault Refusal := performRow .burst s

/-- WINDOW_ACCESS (R170). -/
def execWindowAccess (s : State) : Host.Outcome State Fault Refusal := performRow .window s

/-- RELEASE_WRITE (R57). -/
def execReleaseWrite (s : State) : Host.Outcome State Fault Refusal := performRow .release s

/-- ROUTE_WRITE (R60). -/
def execRouteWrite (s : State) : Host.Outcome State Fault Refusal := performRow .route s

/-- FIN_WRITE (R62). -/
def execFinWrite (s : State) : Host.Outcome State Fault Refusal := performRow .fin s

/-- SPEED_WRITE (R63). -/
def execSpeedWrite (s : State) : Host.Outcome State Fault Refusal := performRow .speed s

/-- STAY_WRITE (R15). -/
def execStayWrite (s : State) : Host.Outcome State Fault Refusal := performRow .stay s

/-- CONSUMER_INDEX_WRITE (R182). -/
def execConsumerIndexWrite (s : State) : Host.Outcome State Fault Refusal := performRow .consumer s

/-- TRIGGER_WRITE (R174). -/
def execTriggerWrite (s : State) : Host.Outcome State Fault Refusal := performRow .trigger s

end Sys2Proof.Machine
end

