-- ==== Sys2Proof/Machine/Power.lean ====
section
/-!
DEFINITION. RESET and LOADING: RESET_ASSERT, RESET_RELEASE, STORE_IMAGE_READ, STORE_READ_TIMEOUT, END_OF_LOADING.
-/

namespace Sys2Proof.Machine

/-! ## RESET (R173) -/

/-- What the first beats of a write leave in memory, if memory had completed them when RESET was asserted: the store of a
single write, or the beats of a burst that is performed (R173). -/
def beatsCompleted (n : Nat) (a : Access) (s : State) : Memory :=
  if n = 0 || !a.write then s.memory
  else if a.beats = 1 then ((s.rowOf a).effect a (grantPassage s)).memory
  else if s.ride.state = .loading || a.pastTop || (s.firstGuarded a).isSome || s.burstRefused a then s.memory
  else (storeBeats a (a.beatList.take n) s).memory

/-- What memory holds when RESET is asserted: a controller access that had been granted may have completed some beats. -/
def State.memoryAtReset (s : State) (beats : Nat) : Memory :=
  match s.passage.access with
  | none => s.memory
  | some a => if s.passage.nextGrant = .passage then beatsCompleted beats a s else s.memory

/-- The part under RESET: the reset values, with memory, the store, the pins and the commands that wait kept. -/
def underReset (memory : Memory) (s : State) : State :=
  { State.reset with
    pending := s.pending
    sensePin := s.sensePin
    memory := memory
    loader := { State.reset.loader with store := s.loader.store } }

/-- An access that is held with WAIT ends at once with ERROR (R173). -/
def endAccess (a : Option Access) (s : State) : State :=
  match a with
  | some a => s.respondError a
  | none => s

/-- RESET_ASSERT (R173). `beats` says how many beats of a granted access memory had completed. -/
def execResetAssert (beats : Nat) (s : State) : Host.Outcome State Fault Refusal :=
  if s.resetAsserted then .next s
  else .next (endAccess s.passage.access (underReset (s.memoryAtReset beats) s))

/-- RESET_RELEASE (R144, R153, R184): LOADING begins with the read of the store, and the level of CTRL-RESET-SENSE is taken
as it stands. -/
def execResetRelease (s : State) : Host.Outcome State Fault Refusal :=
  if s.resetAsserted then
    let s := (s.setResetAsserted false).setClock 0
    let s := s.setRide { s.ride with senseLevel := s.sensePin }
    .next (s.setLoader { s.loader with phase := .reading })
  else .next s

/-! ## LOADING (R144, R184) -/

/-- The store is being read. -/
def State.readingStore (s : State) : Bool := s.ride.state == .loading && s.loader.phase == .reading

/-- STORE_IMAGE_READ (R184). -/
def execStoreImageRead (s : State) : Host.Outcome State Fault Refusal := event s s.readingStore loadStore

/-- STORE_READ_TIMEOUT (R184): check 14, STORE. No byte has gone 20 ms unacknowledged before the ride clock, 0 at the release
of RESET, stands at 20 (log entry 31). -/
def execStoreReadTimeout (s : State) : Host.Outcome State Fault Refusal :=
  event s (s.readingStore && decide (Config.twentyMs ≤ s.clock)) (loadInvalid 14 0)

/-- LOADING has read its image, and every write that it queued has completed. -/
def State.loadingEnds (s : State) : Bool :=
  s.ride.state == .loading && (s.loader.phase == .installed || s.loader.phase == .invalid) && s.loadingDone

/-- END_OF_LOADING (R144). -/
def execEndOfLoading (s : State) : Host.Outcome State Fault Refusal := event s s.loadingEnds endLoading

end Sys2Proof.Machine
end

