-- ==== Sys2Proof/Machine/Requests.lean ====
section
/-!
DEFINITION. The directives as commands: a trigger whose arguments stand at hand, answered BUSY or dispatched in one event
(log entry 7). No directive is taken in LOADING (R144).
-/

namespace Sys2Proof.Machine

/-- A directive with its arguments at hand, outside RESET and LOADING. -/
def takeRequest (k : DirectiveKind) (tag : BitVec 16) (args : List Word) (s : State) :
    Host.Outcome State Fault Refusal :=
  event s (s.ride.state != .loading) (request k tag args)

/-- A directive whose argument count the trigger word can carry. -/
def execRequest (k : DirectiveKind) (r : Request) (s : State) : Host.Outcome State Fault Refusal :=
  if r.wellFormed then takeRequest k r.tag r.args s else .fault .unencodable

/-- START_RIDE (R154). -/
def execStartRide (r : Request) (s : State) : Host.Outcome State Fault Refusal := execRequest .startRide r s

/-- STOP_RIDE (R155). -/
def execStopRide (r : Request) (s : State) : Host.Outcome State Fault Refusal := execRequest .stopRide r s

/-- STOP_NOW (R156). -/
def execStopNow (r : Request) (s : State) : Host.Outcome State Fault Refusal := execRequest .stopNow r s

/-- RESET_TRIP (R157). -/
def execResetTrip (r : Request) (s : State) : Host.Outcome State Fault Refusal := execRequest .resetTrip r s

/-- DRILL_TRIP (R158): DRILL with its argument 0. -/
def execDrillTrip (tag : BitVec 16) (s : State) : Host.Outcome State Fault Refusal := takeRequest .drill tag [0] s

/-- DRILL_SUSTAIN (R159): DRILL with its argument 1. -/
def execDrillSustain (tag : BitVec 16) (s : State) : Host.Outcome State Fault Refusal := takeRequest .drill tag [1] s

/-- ADD_BOAT (R17). -/
def execAddBoat (r : Request) (s : State) : Host.Outcome State Fault Refusal := execRequest .addBoat r s

/-- WITHDRAW_BOAT (R18). -/
def execWithdrawBoat (r : Request) (s : State) : Host.Outcome State Fault Refusal := execRequest .withdrawBoat r s

/-- RESEAT (R19). -/
def execReseat (r : Request) (s : State) : Host.Outcome State Fault Refusal := execRequest .reseat r s

/-- SET_PACE (R98). -/
def execSetPace (r : Request) (s : State) : Host.Outcome State Fault Refusal := execRequest .setPace r s

/-- SET_PROFILE (R109). -/
def execSetProfile (r : Request) (s : State) : Host.Outcome State Fault Refusal := execRequest .setProfile r s

/-- COMMIT_CONFIG (R185). -/
def execCommitConfig (r : Request) (s : State) : Host.Outcome State Fault Refusal := execRequest .commitConfig r s

/-- RESTART_LINE (R134). -/
def execRestartLine (r : Request) (s : State) : Host.Outcome State Fault Refusal := execRequest .restartLine r s

end Sys2Proof.Machine
end

