-- ==== Sys2Proof/Machine/LineEvents.lean ====
section
/-!
DEFINITION. The course line's commands (07): ROUND, NODE_REPORT, SLOT_MISS, ROUND_SILENCE, STUCK_LOW, BREAK_END,
ENUMERATION_ANSWER, ENUMERATION_TIMEOUT, LINE_LEVEL_CHANGE.
-/

namespace Sys2Proof.Machine

/-- The line is UP (R120). -/
def State.lineUp (s : State) : Bool := s.line.state == .up

/-- A round is due: its time has come, the slots of the last round are closed, and the line is not lost (R122, R127). -/
def State.roundDue (s : State) : Bool :=
  s.lineUp && s.line.slot.isNone && decide (s.line.nextRound ≤ s.clock) && decide (s.line.silence < Config.silenceLimit)

/-- ROUND (R122). -/
def execRound (s : State) : Host.Outcome State Fault Refusal := event s s.roundDue beginRound

/-- NODE_REPORT (R124): the frame is the one that began in the open slot's window, and it is valid. -/
def execNodeReport (frame : List Byte) (s : State) : Host.Outcome State Fault Refusal :=
  match s.line.slot with
  | some p => event s (s.lineUp && s.validReport p frame) (slotReport p (parseReport frame))
  | none => .next s

/-- SLOT_MISS (R125): the frames that began in the open slot's window are no valid report. -/
def execSlotMiss (frames : List (List Byte)) (s : State) : Host.Outcome State Fault Refusal :=
  match s.line.slot with
  | some p => event s (s.lineUp && s.slotMissed p frames) (slotMiss p)
  | none => .next s

/-- ROUND_SILENCE (R127). -/
def execRoundSilence (s : State) : Host.Outcome State Fault Refusal :=
  event s (s.lineUp && decide (Config.silenceLimit ≤ s.line.silence)) (lineDown .silence)

/-- STUCK_LOW (R128). -/
def execStuckLow (s : State) : Host.Outcome State Fault Refusal :=
  event s (s.lineUp && s.line.lowSince.any fun t => decide (t + Config.twentyMs ≤ s.clock)) (lineDown .stuckLow)

/-- BREAK_END (R131). -/
def execBreakEnd (s : State) : Host.Outcome State Fault Refusal :=
  match s.line.discovery with
  | .breaking since => event s (since + Config.breakMs ≤ s.clock) (sendQuery 1)
  | .query .. | .idle => .next s

/-- ENUMERATION_ANSWER (R132): a frame that is an answer, within 5 ms of its query. -/
def execEnumerationAnswer (frame : List Byte) (s : State) : Host.Outcome State Fault Refusal :=
  match s.line.discovery with
  | .query p sentAt => event s (validAnswer frame && decide (s.clock ≤ sentAt + Config.answerMs)) (takeAnswer p frame)
  | .breaking _ | .idle => .next s

/-- ENUMERATION_TIMEOUT (R132). -/
def execEnumerationTimeout (s : State) : Host.Outcome State Fault Refusal :=
  match s.line.discovery with
  | .query p sentAt => event s (sentAt + Config.answerMs ≤ s.clock) (endDiscovery (p - 1))
  | .breaking _ | .idle => .next s

/-- The time from which the line has stood low (R120, R128). -/
def takeLevel (low : Bool) (s : State) : State :=
  s.setLine { s.line with lowSince := if low then some (s.line.lowSince.getD s.clock) else none }

/-- LINE_LEVEL_CHANGE (R120, R128): the level is kept in every line state, and watched while the line is UP. -/
def execLineLevelChange (low : Bool) (s : State) : Host.Outcome State Fault Refusal := event s true (takeLevel low)

end Sys2Proof.Machine
end

