-- ==== Sys2Proof/Machine/Timers.lean ====
section
/-!
DEFINITION. The commands of times that arrive, and CTRL-RESET-SENSE: RESERVATION_LAPSE, DWELL_EXPIRY, HOLD_EXPIRY,
PACER_INTERVAL_ELAPSED, PROFILE_STEP, FIN_LAG_EXPIRY, CTRL_RESET_SENSE. Each can come about once the ride clock has reached
its time (log entry 3).
-/

namespace Sys2Proof.Machine

/-- RESERVATION_LAPSE (R41). -/
def execReservationLapse (boat : Nat) (s : State) : Host.Outcome State Fault Refusal :=
  match s.lapsing boat with
  | some r => event s true (lapse r)
  | none => .next s

/-- DWELL_EXPIRY (R46). -/
def execDwellExpiry (boat : Nat) (s : State) : Host.Outcome State Fault Refusal :=
  match (s.boat boat).segment with
  | some g => event s (s.overdue boat) (takeOverdue boat g)
  | none => .next s

/-- HOLD_EXPIRY (R77): the entry leaves the list with the hold reason it stood with. -/
def execHoldExpiry (word : WordRef) (s : State) : Host.Outcome State Fault Refusal :=
  match s.heldEntry word with
  | some h => event s (h.expiry ≤ s.clock) (endHeld h .expired (some h.reason))
  | none => .next s

/-- The pacer takes its clock's reaching of the active interval, with stage 1 met or not. -/
def State.paceReached (s : State) (stage1 : Bool) : State :=
  s.setBerth { s.berth with pacer := s.berth.pacer.map fun p => { p with reached := true, stage1 := stage1 } }

/-- Pacer stage 1 becomes met by the passing of time: the pacer block is rewritten, and the Hold Queue examines (R95, R97). -/
def meetStage1 (s : State) : State := examine (askChanged s (s.paceReached true))

/-- The interval clock reaches the active interval: stage 1 becomes met, unless it is met already or a launch reservation is
outstanding, whose end is then the second of the two events (R95). -/
def reachInterval (p : Pacer) (s : State) : State :=
  if s.launchReserved || p.stage1 then s.paceReached p.stage1 else meetStage1 s

/-- PACER_INTERVAL_ELAPSED (R95). -/
def execPacerIntervalElapsed (s : State) : Host.Outcome State Fault Refusal :=
  match s.berth.pacer with
  | some p => event s (!p.reached && decide (p.interval ≤ s.intervalClock p)) (reachInterval p)
  | none => .next s

/-- The run-out index of the segment that a boat stands in (R107). -/
def State.runoutOf (s : State) (b : Nat) : Option Nat := (s.boat b).segment.bind fun g => (s.config.segment g).runout

/-- PROFILE_STEP (R107): the floor is recomputed, and the next step time moves to the following step. -/
def execProfileStep (boat : Nat) (s : State) : Host.Outcome State Fault Refusal :=
  match s.runoutOf boat with
  | some r => event s ((s.boat boat).nextStep.any fun t => decide (t ≤ s.clock)) (recomputeFloor r)
  | none => .next s

/-- A timer has run for a time. -/
def FinTimer.ranFor (lag now : Nat) : FinTimer → Bool
  | .running t => decide (t + lag ≤ now)
  | .idle | .expired => false

/-- A run-out's fin-lag timer has run for the fin lag (R113). -/
def State.finLagRun (s : State) (r : Nat) : Bool := (s.runout r).any fun x => x.timer.ranFor s.config.finLag s.clock

/-- R113: the timer expires, the run-out becomes FAULTED, BRAKE-SHORT is raised. -/
def expireFinLag (r g : Nat) (s : State) : State :=
  let s1 := s.setRunout r fun x => { x with timer := .expired }
  handOn s (raiseCause .brakeShort .segment g (faultSegments .brakeShort [g] s1))

/-- FIN_LAG_EXPIRY (R113). -/
def execFinLagExpiry (runout : Nat) (s : State) : Host.Outcome State Fault Refusal :=
  match s.config.runoutSegment runout with
  | some g => event s (s.finLagRun runout) (expireFinLag runout g)
  | none => .next s

/-- R153: the level is taken, and an assertion raises CONTROLLER-RESET. -/
def takeSense (asserted : Bool) (s : State) : State :=
  let s := (s.setSensePin asserted).setRide { s.ride with senseLevel := asserted }
  if asserted then raiseCause .controllerReset .none 0 s else s

/-- CTRL_RESET_SENSE (R153): a change of the level. Under RESET the pin changes and nothing is taken (log entry 28). -/
def execCtrlResetSense (asserted : Bool) (s : State) : Host.Outcome State Fault Refusal :=
  if s.resetAsserted then .next (s.setSensePin asserted)
  else event s (asserted != s.sensePin) (takeSense asserted)

end Sys2Proof.Machine
end

