-- ==== Sys2Proof/Machine/Dispatch.lean ====
section
/-!
DEFINITION. What each command does: one arm for each constructor of `Instr`.
-/

namespace Sys2Proof.Machine

/-- The effect of a command on everything but the queue of commands. -/
def exec (i : Instr) (s : State) : Host.Outcome State Fault Refusal :=
  match i with
  | .resetAssert beats => Sys2Proof.Machine.execResetAssert beats s
  | .resetRelease => Sys2Proof.Machine.execResetRelease s
  | .storeImageRead => Sys2Proof.Machine.execStoreImageRead s
  | .storeReadTimeout => Sys2Proof.Machine.execStoreReadTimeout s
  | .endOfLoading => Sys2Proof.Machine.execEndOfLoading s
  | .controllerAccessArrival access => Sys2Proof.Machine.execControllerAccessArrival access s
  | .controllerRead => Sys2Proof.Machine.execControllerRead s
  | .controllerWrite => Sys2Proof.Machine.execControllerWrite s
  | .writeBurst => Sys2Proof.Machine.execWriteBurst s
  | .windowAccess => Sys2Proof.Machine.execWindowAccess s
  | .releaseWrite => Sys2Proof.Machine.execReleaseWrite s
  | .routeWrite => Sys2Proof.Machine.execRouteWrite s
  | .finWrite => Sys2Proof.Machine.execFinWrite s
  | .speedWrite => Sys2Proof.Machine.execSpeedWrite s
  | .stayWrite => Sys2Proof.Machine.execStayWrite s
  | .consumerIndexWrite => Sys2Proof.Machine.execConsumerIndexWrite s
  | .triggerWrite => Sys2Proof.Machine.execTriggerWrite s
  | .argumentReadComplete => Sys2Proof.Machine.execArgumentReadComplete s
  | .startRide request => Sys2Proof.Machine.execStartRide request s
  | .stopRide request => Sys2Proof.Machine.execStopRide request s
  | .stopNow request => Sys2Proof.Machine.execStopNow request s
  | .resetTrip request => Sys2Proof.Machine.execResetTrip request s
  | .drillTrip tag => Sys2Proof.Machine.execDrillTrip tag s
  | .drillSustain tag => Sys2Proof.Machine.execDrillSustain tag s
  | .addBoat request => Sys2Proof.Machine.execAddBoat request s
  | .withdrawBoat request => Sys2Proof.Machine.execWithdrawBoat request s
  | .reseat request => Sys2Proof.Machine.execReseat request s
  | .setPace request => Sys2Proof.Machine.execSetPace request s
  | .setProfile request => Sys2Proof.Machine.execSetProfile request s
  | .commitConfig request => Sys2Proof.Machine.execCommitConfig request s
  | .restartLine request => Sys2Proof.Machine.execRestartLine request s
  | .stagingReadComplete => Sys2Proof.Machine.execStagingReadComplete s
  | .savePageAck => Sys2Proof.Machine.execSavePageAck s
  | .savePageTimeout => Sys2Proof.Machine.execSavePageTimeout s
  | .motionWriteGrant => Sys2Proof.Machine.execMotionWriteGrant s
  | .motionWriteComplete => Sys2Proof.Machine.execMotionWriteComplete s
  | .reportRecordWrite => Sys2Proof.Machine.execReportRecordWrite s
  | .imageItemWrite => Sys2Proof.Machine.execImageItemWrite s
  | .round => Sys2Proof.Machine.execRound s
  | .nodeReport frame => Sys2Proof.Machine.execNodeReport frame s
  | .slotMiss frames => Sys2Proof.Machine.execSlotMiss frames s
  | .roundSilence => Sys2Proof.Machine.execRoundSilence s
  | .stuckLow => Sys2Proof.Machine.execStuckLow s
  | .breakEnd => Sys2Proof.Machine.execBreakEnd s
  | .enumerationAnswer frame => Sys2Proof.Machine.execEnumerationAnswer frame s
  | .enumerationTimeout => Sys2Proof.Machine.execEnumerationTimeout s
  | .reservationLapse boat => Sys2Proof.Machine.execReservationLapse boat s
  | .dwellExpiry boat => Sys2Proof.Machine.execDwellExpiry boat s
  | .holdExpiry word => Sys2Proof.Machine.execHoldExpiry word s
  | .pacerIntervalElapsed => Sys2Proof.Machine.execPacerIntervalElapsed s
  | .profileStep boat => Sys2Proof.Machine.execProfileStep boat s
  | .finLagExpiry runout => Sys2Proof.Machine.execFinLagExpiry runout s
  | .ctrlResetSense asserted => Sys2Proof.Machine.execCtrlResetSense asserted s
  | .lineLevelChange low => Sys2Proof.Machine.execLineLevelChange low s

end Sys2Proof.Machine
end

