-- ==== Sys2Proof/Machine/Step.lean ====
section
/-!
DEFINITION. One step of the block: the command at the front of the queue is run, and with no command waiting one
millisecond passes on the ride clock.
-/

namespace Sys2Proof.Machine

/-- The passing of one millisecond: the ride clock counts from the release of RESET (00 "Ride clock"). Nothing else
changes with time alone; what time brings about is a command of its own (log entries 1 and 3). -/
def tick (s : State) : State := if s.resetAsserted then s else s.setClock (s.clock + 1)

/-- One step: the first waiting command is run with the queue's rest; an empty queue lets a millisecond pass. -/
def step (s : State) : Host.Outcome State Fault Refusal :=
  match s.pending with
  | c :: rest => exec c { s with pending := rest }
  | [] => .next (tick s)

/-- The command that a word spells, at the front of the queue. -/
def State.withFetchWord (s : State) (nbits w : Nat) : State :=
  match decodeTableWord nbits w with
  | some c => { s with pending := c :: s.pending }
  | none => s

end Sys2Proof.Machine
end

