-- ==== Sys2Proof/Safety.lean ====
section
/-!
DEFINITION. What a state must be for the statements to speak of it: image memory and the serial store in canonical form,
and the laws of the device that the chapters give to their structures; and what a change may touch: the units that each
command may change, and the bytes of image memory that it may store to.
-/

namespace Sys2Proof.Machine

/-! ## What a change may touch -/

/-- The parts of the state, one for each field of `State`. -/
inductive Part where
  | pending | clock | resetAsserted | sensePin | memory | passage | verdict | hold | tracker | berth | brake | line
  | ride | directive | report | loader
  deriving DecidableEq, Repr

/-- A part is the same in two states. -/
def Part.same : Part → State → State → Prop
  | .pending, s, t => s.pending = t.pending
  | .clock, s, t => s.clock = t.clock
  | .resetAsserted, s, t => s.resetAsserted = t.resetAsserted
  | .sensePin, s, t => s.sensePin = t.sensePin
  | .memory, s, t => s.memory = t.memory
  | .passage, s, t => s.passage = t.passage
  | .verdict, s, t => s.verdict = t.verdict
  | .hold, s, t => s.hold = t.hold
  | .tracker, s, t => s.tracker = t.tracker
  | .berth, s, t => s.berth = t.berth
  | .brake, s, t => s.brake = t.brake
  | .line, s, t => s.line = t.line
  | .ride, s, t => s.ride = t.ride
  | .directive, s, t => s.directive = t.directive
  | .report, s, t => s.report = t.report
  | .loader, s, t => s.loader = t.loader

/-- Every part but the listed ones is the same in two states. -/
def Keeps (changed : List Part) (s t : State) : Prop := ∀ p, p ∉ changed → p.same s t

/-- What a change of the ride model or of a shadow reaches through its hand-on (R6, R51). -/
def modelParts : List Part := [.passage, .hold, .tracker, .berth, .brake, .report]

/-- What an event that may raise a trip cause reaches: a trip also changes the ride state, and the abort of a drill answers
its directive and ends the withholding of rounds, which returns nodes (R139, R149, R160). -/
def tripParts : List Part := modelParts ++ [.ride, .directive, .line]

/-- What an event that may take a configuration reaches (R187). -/
def takeParts : List Part := tripParts ++ [.verdict, .loader]

/-- The parts that a command may change, the queue of commands never among them. -/
def mayChange : Instr → List Part
  | .resetAssert _ =>
    [.clock, .resetAsserted, .memory, .passage, .verdict, .hold, .tracker, .berth, .brake, .line, .ride, .directive,
      .report, .loader]
  | .resetRelease => [.clock, .resetAsserted, .ride, .loader]
  | .storeImageRead => [.passage, .verdict, .hold, .tracker, .berth, .brake, .line, .report, .loader]
  | .storeReadTimeout => [.passage, .loader]
  | .endOfLoading => modelParts ++ [.ride, .line, .loader]
  | .controllerAccessArrival _ => [.passage]
  | .controllerRead => [.passage]
  | .controllerWrite => [.memory, .passage]
  | .writeBurst => [.memory, .passage, .verdict, .report]
  | .windowAccess => [.memory, .passage, .tracker]
  | .releaseWrite | .routeWrite | .finWrite | .speedWrite => modelParts ++ [.memory, .verdict]
  | .stayWrite => [.memory, .passage, .tracker]
  | .consumerIndexWrite => [.memory, .passage, .report]
  | .triggerWrite => takeParts ++ [.memory]
  | .argumentReadComplete => takeParts
  | .startRide _ => modelParts ++ [.ride, .directive]
  | .stopRide _ => takeParts
  | .stopNow _ => tripParts
  | .resetTrip _ => takeParts
  | .drillTrip _ => tripParts
  | .drillSustain _ => [.passage, .line, .ride, .directive]
  | .addBoat _ | .withdrawBoat _ | .reseat _ => modelParts ++ [.directive]
  | .setPace _ => modelParts ++ [.directive]
  | .setProfile _ => [.passage, .tracker, .brake, .directive, .report]
  | .commitConfig _ => [.passage, .directive]
  | .restartLine _ => modelParts ++ [.ride, .line, .directive]
  | .stagingReadComplete => takeParts
  | .savePageAck | .savePageTimeout => [.passage, .report, .loader]
  | .motionWriteGrant => [.passage, .brake]
  | .motionWriteComplete => modelParts ++ [.memory, .verdict]
  | .reportRecordWrite => [.memory, .passage, .report]
  | .imageItemWrite => [.memory, .passage]
  | .round => [.passage, .line, .ride, .report]
  | .nodeReport _ | .slotMiss _ => tripParts
  | .roundSilence | .stuckLow => tripParts
  | .breakEnd => [.passage, .line]
  | .enumerationAnswer _ | .enumerationTimeout => takeParts
  | .reservationLapse _ => modelParts
  | .dwellExpiry _ => tripParts
  | .holdExpiry _ => [.passage, .hold, .report]
  | .pacerIntervalElapsed => modelParts
  | .profileStep _ => [.passage, .tracker, .brake, .report]
  | .finLagExpiry _ => tripParts
  | .ctrlResetSense _ => tripParts ++ [.sensePin]
  | .lineLevelChange _ => [.passage, .line]

/-! ## Where a command stores (R81, R101, R165, R181, R190) -/

/-- An address is one of the four bytes of the word at `a`. -/
def inWord (a k : Nat) : Prop := a ≤ k ∧ k < a + 4

/-- An address is one of the bytes that an access names: a byte of an enabled lane of one of its words. -/
def accessStores (a : Access) (k : Nat) : Prop :=
  ∃ w ∈ a.words, inWord w k ∧ a.lanes.getLsbD (k - w) = true

/-- An address is one of the bytes that an image item's write stores to: a roster record's STAY word only where it is
cleared, the spare bytes of the status page in two stretches, any other item whole (R15, R16, R190). -/
def State.itemStores (s : State) (i : ImageItem) (clearStay : Bool) (k : Nat) : Prop :=
  let a := (itemPlace i).1
  match i with
  | .roster _ =>
    let base := s.config.map.roster.base + a
    base ≤ k ∧ k < base + 32 ∧ (clearStay = true ∨ ¬ inWord (base + 16) k)
  | .spare => (a ≤ k ∧ k < a + 8) ∨ (0xFFF5E0 ≤ k ∧ k < 0xFFF600)
  | .segment _ | .reservations | .lastVerdict | .holdQueue | .berth _ | .pacer | .brake | .shadows | .ride | .line
  | .node _ | .passage | .config | .result | .producer | .consumer => a ≤ k ∧ k < a + (itemPlace i).2

/-- The roster word that an access through a window is performed at, for the boat of the window at the grant (R101). -/
def State.windowStores (s : State) (a : Access) (k : Nat) : Prop :=
  match s.classify a.word with
  | .window w o => ∃ target, s.windowTarget w o = some target ∧ inWord target k
  | .plain | .guarded _ | .rosterPart | .stay _ | .ring | .status | .consumer | .trigger | .directiveArea | .resultArea
  | .staging => False

/-- The address of the guarded word that an access names. -/
def State.guardedStores (s : State) (a : Access) (k : Nat) : Prop :=
  match s.classify a.word with
  | .guarded w => inWord (s.config.wordAddr w) k
  | .plain | .rosterPart | .stay _ | .ring | .status | .consumer | .trigger | .directiveArea | .resultArea | .staging
  | .window .. => False

/-- A test of the controller's access, false while none waits. -/
def State.ofAccess (s : State) (p : Access → Prop) : Prop :=
  match s.passage.access with
  | some a => p a
  | none => False

/-- The bytes of image memory that a command may store to. -/
def State.storesTo (s : State) (c : Instr) (k : Nat) : Prop :=
  match c with
  | .controllerWrite | .writeBurst | .stayWrite | .consumerIndexWrite | .triggerWrite => s.ofAccess (accessStores · k)
  | .windowAccess => s.ofAccess (s.windowStores · k)
  | .releaseWrite | .routeWrite | .finWrite | .speedWrite => s.ofAccess (s.guardedStores · k)
  | .resetAssert _ => s.ofAccess fun a => accessStores a k ∨ s.windowStores a k ∨ s.guardedStores a k
  | .motionWriteComplete =>
    match s.passage.port with
    | some m => inWord m.addr k
    | none => False
  | .reportRecordWrite =>
    match s.upkeepGrant with
    | some (.record slot _ _ _ _) =>
      (s.config.map.ring.base + 16 * slot ≤ k ∧ k < s.config.map.ring.base + 16 * slot + 16) ∨
        inWord Config.producerAddr k
    | some (.image ..) | some (.argument _) | some (.staging ..) | none => False
  | .imageItemWrite =>
    match s.upkeepGrant with
    | some (.image i clearStay) => s.itemStores i clearStay k
    | some (.record ..) | some (.argument _) | some (.staging ..) | none => False
  | .resetRelease | .storeImageRead | .storeReadTimeout | .endOfLoading | .controllerAccessArrival _ | .controllerRead
  | .argumentReadComplete | .startRide _ | .stopRide _ | .stopNow _ | .resetTrip _ | .drillTrip _ | .drillSustain _
  | .addBoat _ | .withdrawBoat _ | .reseat _ | .setPace _ | .setProfile _ | .commitConfig _ | .restartLine _
  | .stagingReadComplete | .savePageAck | .savePageTimeout | .motionWriteGrant | .round | .nodeReport _ | .slotMiss _
  | .roundSilence | .stuckLow | .breakEnd | .enumerationAnswer _ | .enumerationTimeout | .reservationLapse _
  | .dwellExpiry _ | .holdExpiry _ | .pacerIntervalElapsed | .profileStep _ | .finLagExpiry _ | .ctrlResetSense _
  | .lineLevelChange _ => False

/-! ## What an accepted configuration keeps (R2, R8, R9, R105, R163, R183) -/

/-- Every step of a profile table carries a fin stage, 0 to 4 (R105). -/
def Profiles.Staged (p : Profiles) : Prop := ∀ x ∈ p.light ++ p.medium ++ p.heavy, x.stage ≤ 4

/-- What of a configuration the laws of the device rest on. -/
structure FlumeConfig.Laid (c : FlumeConfig) : Prop where
  segments : 1 ≤ c.segments.length ∧ c.segments.length ≤ 24
  nodes    : 1 ≤ c.nodes.length ∧ c.nodes.length ≤ 16
  ring     : 16 ≤ c.ringCount
  ends     : ∀ e ∈ c.edges, e.source < c.segments.length ∧ e.destination < c.segments.length ∧ e.source ≠ e.destination
  exits    : ∀ g < c.segments.length, 1 ≤ (c.exits g).length ∧ (c.exits g).length ≤ 2
  launches : ∀ e ∈ c.edges, e.launch = true → (c.segment e.source).gated = true
  indices  : ∀ x ∈ c.segments, ∀ i ∈ [x.route, x.runout, x.conveyor, x.berth], ∀ n, i = some n → n ≤ 3
  profiles : c.profiles.Staged

/-! ## The laws of the device -/

/-- Image memory and the serial store are in canonical form. -/
def State.memoryCanonical (s : State) : Prop := s.memory.wf = true ∧ s.loader.store.wf = true

/-- The eighth law: RIDE-PERMIT is asserted exactly in STOPPED and RUNNING (R143). -/
def State.permitLaw (s : State) : Prop :=
  s.ride.permit = true ↔ s.ride.state = .stopped ∨ s.ride.state = .running

/-- The fourth and the fifth law: at most 8 entries, never two for one word, each for a bound word; outside RUNNING none,
and no performance waits or holds the memory port (R56, R64, R69, R74, R78). -/
structure State.HoldLaw (s : State) : Prop where
  depth   : s.hold.entries.length ≤ 8
  single  : (s.hold.entries.map (·.word)).Nodup
  bound   : ∀ h ∈ s.hold.entries, s.config.bound h.word = true
  outside : s.ride.state ≠ .running → s.hold.entries = [] ∧ (∀ m ∈ s.passage.motion, m.entry? = none) ∧
              ∀ m, s.passage.port = some m → m.entry? = none

/-- The report records that wait in UPKEEP, as slot and next index, in the order of their requests. -/
def State.waitingRecords (s : State) : List (Nat × Nat) :=
  s.passage.upkeep.filterMap fun u =>
    match u with
    | .record slot _ _ _ next => some (slot, next)
    | .image .. | .argument _ | .staging .. => none

/-- The tables stand as the configuration in effect has them: a live record for each segment and eye, for each configured
berth, run-out and conveyor index and no other, a pacer, the expected kind of each node position, no shadow for an unbound
word; and there is a configuration exactly where the ride state says so (R20, R50, R87, R99, R104, R114, R121, R145, R184).
-/
structure State.TablesLaw (s : State) : Prop where
  active    : ∀ c, s.loader.active = some c → c.Laid
  pending   : ∀ i, s.loader.pendingImage = some i → i.config.Laid
  segments  : s.tracker.segments.length = s.config.segments.length
  eyes      : s.tracker.eyes.length = s.config.edges.length
  shadows   : s.verdict.shadows.release.length = 32 ∧ s.verdict.shadows.route.length = 4 ∧
                s.verdict.shadows.fin.length = 4 ∧ s.verdict.shadows.speed.length = 4
  unbound   : ∀ w, s.config.bound w = false → s.shadow w = none
  berths    : s.berth.berths.map (·.index) = indices4.filter fun i => (s.config.berthSegment i).isSome
  pacer     : s.berth.pacer.isSome = s.configured
  runouts   : s.brake.runouts.map (·.index) = indices4.filter fun r => (s.config.runoutSegment r).isSome
  conveyors : s.brake.conveyors.map (·.index) = indices4.filter fun c => (s.config.liftSegment c).isSome
  nodes     : s.line.nodes.length = 16
  expected  : ∀ p < 16, (s.node (p + 1)).expected = s.config.nodes[p]?
  loading   : s.ride.state = .loading → (s.configured = true ↔ s.loader.phase = .installed)
  noConfig  : s.ride.state = .offline .noConfig → s.configured = false
  others    : s.ride.state ≠ .loading → s.ride.state ≠ .offline .noConfig → s.configured = true
  records   : s.configured = false → s.waitingRecords = []

/-- The second law: a boat that stands in a queue is PLACED there, at its position in that queue alone, and a PLACED boat
stands in one (R3, R13). -/
structure State.RosterLaw (s : State) : Prop where
  size   : s.tracker.roster.length = 32
  stands : ∀ g i b, (s.queue g)[i]? = some b →
             (s.boat b).status = .placed ∧ (s.boat b).segment = some g ∧ (s.boat b).position = i + 1
  placed : ∀ b, (s.boat b).status = .placed → ∃ g, b ∈ s.queue g

/-- The first law: the boats in a SOUND segment and the reservations into it never exceed its capacity (R4). -/
def State.capacityLaw (s : State) : Prop :=
  ∀ g < s.config.segments.length, s.faulted g = false → s.load g ≤ (s.config.segment g).capacity

/-- The third law: a boat holds at most one reservation, over an edge out of a gated segment whose head it is (R11). -/
structure State.ReservationLaw (s : State) : Prop where
  single : (s.tracker.reservations.map (·.boat)).Nodup
  heads  : ∀ r ∈ s.tracker.reservations, ∃ e, s.config.edges[r.edge]? = some e ∧
             (s.config.segment e.source).gated = true ∧ (s.queue e.source).head? = some r.boat

/-- The seventh law: a motion write other than a performance that waits for a release word carries CLOSED, and one that
holds the port moves its release, fin or speed word toward its safe value or leaves it there. A write that a take has left
behind changes no word of the map in effect (R82, R84). -/
structure State.MotionLaw (s : State) : Prop where
  closes : ∀ m ∈ s.passage.motion, m.entry? = none → m.word.bank = .release → m.value = 0
  safe   : ∀ m, s.passage.port = some m → m.entry? = none → m.oldMap = false → m.word.bank ≠ .route →
             ∀ v, s.shadow m.word = some v → towardSafe m.word.bank v m.value = true

/-- The motion writes that have not completed: the one that holds the memory port, then those that wait. -/
def State.unfinished (s : State) : List MotionWrite := s.passage.port.toList ++ s.passage.motion

/-- What the tenth law rests on (R62, R82, R108): profile stages and floors stand at 4 at most; with its fin shadow known a
run-out's floor stands at or below the shadow or its waiting lift; a waiting lift is a floor lift of its value that has not
completed; a fin write while the shadow is unknown carries 4; and no fin word is held or performed (R62, R69). -/
structure State.FloorLaw (s : State) : Prop where
  stages    : s.brake.active.Staged ∧ s.brake.buffer.Staged
  ceiling   : ∀ r x, s.runout r = some x → x.floor ≤ 4
  covered   : ∀ r x v, s.runout r = some x → s.shadow ⟨.fin, r⟩ = some v →
                x.floor ≤ v ∨ ∃ w, x.waitingLift = some w ∧ x.floor ≤ w
  lifts     : ∀ r x w, s.runout r = some x → x.waitingLift = some w →
                ∃ m ∈ s.unfinished, m.word = ⟨.fin, r⟩ ∧ m.value = w ∧ m.origin = .floorLift r ∧ m.oldMap = false
  lifted    : ∀ m ∈ s.unfinished, ∀ r, m.origin = .floorLift r → m.word = ⟨.fin, r⟩
  unknown   : ∀ m ∈ s.unfinished, m.word.bank = .fin → m.oldMap = false → s.shadow m.word = none → m.value = 4
  held      : ∀ h ∈ s.hold.entries, h.word.bank = .release ∨ h.word.bank = .speed
  performed : ∀ m ∈ s.unfinished, m.entry? ≠ none → m.word.bank = .release ∨ m.word.bank = .speed

/-- Waiting records follow one another around a ring of `n` slots from an index to an index. -/
def followsFrom (n : Nat) : Nat → List (Nat × Nat) → Nat → Prop
  | p, [], q => p = q
  | p, (slot, next) :: rest, q => slot = p ∧ next = (p + 1) % n ∧ followsFrom n next rest q

/-- The eleventh law: the indices lie in the ring, and the records that wait fill its slots in the order of their events,
from the published producer up to P (R180, R181). -/
structure State.RingLaw (s : State) : Prop where
  bounds : s.configured = true → s.report.assigned < s.config.ringCount ∧ s.report.consumer < s.config.ringCount ∧
             s.report.published < s.config.ringCount
  order  : s.configured = true →
             followsFrom s.config.ringCount s.report.published s.waitingRecords s.report.assigned

/-- While RESET is asserted every unit holds its reset values; memory, the store, the pin, the commands and the last
response on the controller port are what they are (R173). -/
structure State.ResetLaw (s : State) : Prop where
  units   : s.resetAsserted = true → Keeps [.pending, .sensePin, .memory, .passage, .loader] State.reset s
  passage : s.resetAsserted = true → s.passage = { State.reset.passage with response := s.passage.response }
  loader  : s.resetAsserted = true → s.loader = { State.reset.loader with store := s.loader.store }

/-- All the laws together: what the statements about reachable states assume. -/
structure State.Sound (s : State) : Prop where
  memory       : s.memoryCanonical
  permit       : s.permitLaw
  hold         : s.HoldLaw
  tables       : s.TablesLaw
  roster       : s.RosterLaw
  capacity     : s.capacityLaw
  reservations : s.ReservationLaw
  motion       : s.MotionLaw
  floors       : s.FloorLaw
  ring         : s.RingLaw
  reset        : s.ResetLaw

/-! ## The records that wait -/

/-- The reports that wait in UPKEEP to be written, in order. -/
def State.waitingReports (s : State) : List Report :=
  s.passage.upkeep.filterMap fun u =>
    match u with
    | .record _ _ _ r _ => some r
    | .image .. | .argument _ | .staging .. => none

/-- The ring has room for one more record (R180). -/
def State.ringHasRoom (s : State) : Prop :=
  s.configured = true ∧ (s.report.assigned + 1) % s.config.ringCount ≠ s.report.consumer

/-- The ring has room for `n` more records (R180). -/
def State.ringTakes (s : State) (n : Nat) : Prop :=
  s.configured = true ∧ ∀ k < n, (s.report.assigned + k + 1) % s.config.ringCount ≠ s.report.consumer

/-- The HOLD-END record of the entry that a controller write to a word supersedes, if the word has one (R79, R80). -/
def State.supersededReports (s : State) (w : WordRef) : List Report :=
  match s.heldEntry w with
  | some h => [.holdEnd h .superseded none (s.holdEndBoat w)]
  | none => []

/-- The oldest release performance that waits in the MOTION class and whose verdict created the reservation of a boat
has the entry `h` (R76). -/
def State.PerformanceWaits (s : State) (b : Nat) (h : HeldEntry) : Prop :=
  ∃ before m after, s.passage.motion = before ++ m :: after ∧ (∀ n ∈ before, n.performsFor b = false) ∧
    m.word.bank = .release ∧ m.origin = .performance h (some b)

/-- The HOLD-END record of a performance that the end of its reservation withdraws (R76, R80). -/
def State.endedReport (s : State) (h : HeldEntry) : Report :=
  .holdEnd h .dropped (some .reservationEnded) (s.holdEndBoat h.word)

/-! ## The controller's access at its grant -/

/-- The command by which a granted access of a row ends. -/
def AccessRow.command : AccessRow → Instr
  | .read => .controllerRead
  | .write => .controllerWrite
  | .burst => .writeBurst
  | .window => .windowAccess
  | .release => .releaseWrite
  | .route => .routeWrite
  | .fin => .finWrite
  | .speed => .speedWrite
  | .stay => .stayWrite
  | .consumer => .consumerIndexWrite
  | .trigger => .triggerWrite

/-- The controller's access waits and the arbiter grants it next. -/
structure State.Grants (s : State) (a : Access) : Prop where
  live    : s.resetAsserted = false
  waits   : s.passage.access = some a
  granted : s.passage.nextGrant = .passage

/-- The access is a single write to a guarded word, past LOADING. -/
structure State.GrantsWord (s : State) (w : WordRef) (a : Access) : Prop where
  grants  : s.Grants a
  loaded  : s.ride.state ≠ .loading
  write   : a.write = true
  single  : a.beats = 1
  names   : s.classify a.word = .guarded w

/-- The row of a single write to a word of a bank. -/
def bankRow : Bank → AccessRow
  | .release => .release
  | .route => .route
  | .fin => .fin
  | .speed => .speed

/-- The access has ended with a response and delivered words. -/
structure State.Ended (t : State) (done : Bool) (data : List Word) : Prop where
  response : t.passage.response = some ⟨done, data⟩
  access   : t.passage.access = none

/-- A guarded write is refused by the Verdict Unit: ERROR, memory, shadows and the ride model as before, an entry that
it superseded gone with the hold queue image asked for, and the last-verdict block names the reason and its image is
asked for; the records are HOLD-END SUPERSEDED of such an entry (first: the model's order, log entry 13), then VERDICT
(R54, R66 to R69, R79). -/
structure State.Refuses (s t : State) (w : WordRef) (a : Access) (reason : Reason) (boat : Nat) : Prop where
  ended   : t.Ended false []
  memory  : t.memory = s.memory
  shadows : t.verdict.shadows = s.verdict.shadows
  tracker : t.tracker = s.tracker
  held    : t.hold.entries = s.hold.entries.filter (·.word != w)
  last    : t.verdict.last = some ⟨s.clock, w, a.value, .refuse, reason, none, boat⟩
  shown   : t.passage.upkeep.any (·.asksFor .lastVerdict) = true
  list    : (∃ h ∈ s.hold.entries, h.word = w) → t.passage.upkeep.any (·.asksFor .holdQueue) = true
  records : s.ringTakes ((s.supersededReports w).length + 1) →
              t.waitingReports = s.waitingReports ++ s.supersededReports w ++
                [.verdict ⟨s.clock, w, a.value, .refuse, reason, none, boat⟩]

/-- A guarded write stores a value: DONE, the word's memory and shadow hold it, every other shadow stands, and no entry of
the word is left in the hold queue; the HOLD-END SUPERSEDED record of an entry that stood there is the event's first (the
model's order, log entry 13), and the hold queue image is asked for (R53, R54, R56, R69, R79). -/
structure State.Stores (s t : State) (w : WordRef) (v : Nat) : Prop where
  ended    : t.Ended true []
  memory   : t.memory = s.memory.writeWord (s.config.wordAddr w) (BitVec.ofNat 32 v)
  shadow   : t.shadow w = some v
  others   : ∀ x, x ≠ w → t.shadow x = s.shadow x
  segments : t.tracker.segments = s.tracker.segments
  held     : ∀ h ∈ t.hold.entries, h.word ≠ w
  list     : (∃ h ∈ s.hold.entries, h.word = w) → t.passage.upkeep.any (·.asksFor .holdQueue) = true
  records  : s.ringTakes (s.supersededReports w).length →
               s.waitingReports ++ s.supersededReports w <+: t.waitingReports

/-- A guarded write is held: DONE, memory, shadows and the ride model as before, its entry at the tail, and the
last-verdict block names the verdict; the images of both are asked for; the records are HOLD-END SUPERSEDED of an entry
of the word (first: the model's order, log entry 13), then VERDICT (R54, R59, R66, R67, R69, R70, R79). -/
structure State.Holds (s t : State) (w : WordRef) (a : Access) (v : Nat) (amended : Bool) (reason : Reason)
    (boat : Nat) : Prop where
  ended   : t.Ended true []
  memory  : t.memory = s.memory
  shadows : t.verdict.shadows = s.verdict.shadows
  tracker : t.tracker = s.tracker
  held    : t.hold.entries = s.hold.entries.filter (·.word != w) ++
              [⟨w, v, amended, s.clock, s.clock + s.config.holdLimit, reason⟩]
  last    : t.verdict.last = some ⟨s.clock, w, a.value, .hold, reason, some v, boat⟩
  shown   : t.passage.upkeep.any (·.asksFor .lastVerdict) = true
  list    : t.passage.upkeep.any (·.asksFor .holdQueue) = true
  records : s.ringTakes ((s.supersededReports w).length + 1) →
              t.waitingReports = s.waitingReports ++ s.supersededReports w ++
                [.verdict ⟨s.clock, w, a.value, .hold, reason, some v, boat⟩]

/-! ## Trips and results -/

/-- A cause has been taken: from STOPPED or RUNNING the ride is TRIPPED with a new trip block that starts with it, in
TRIPPED its kind has joined the cause set and the count has risen, with the ride block's image asked for in each of these,
and in LOADING and OFFLINE nothing is raised (R148 to R151). -/
structure State.Raised (s t : State) (cause : Cause) (kind : DetailKind) (detail : Nat) : Prop where
  starts : s.ride.state = .stopped ∨ s.ride.state = .running →
             t.ride.state = .tripped ∧ t.ride.permit = false ∧ t.ride.drill = none ∧ t.hold.entries = [] ∧
               t.ride.trip = { first := some cause, detailKind := kind, detail := detail, time := s.clock,
                               causes := [cause], additional := 0 }
  joins  : s.ride.state = .tripped →
             t.ride.state = .tripped ∧ t.ride.permit = s.ride.permit ∧ cause ∈ t.ride.trip.causes ∧
               (∀ c ∈ s.ride.trip.causes, c ∈ t.ride.trip.causes) ∧ t.ride.trip.first = s.ride.trip.first ∧
               t.ride.trip.additional = min (s.ride.trip.additional + 1) 65535
  shown  : s.ride.state = .stopped ∨ s.ride.state = .running ∨ s.ride.state = .tripped →
             t.passage.upkeep.any (·.asksFor .ride) = true
  idle   : s.ride.state = .loading ∨ (∃ r, s.ride.state = .offline r) → t.ride = s.ride

/-- A node table entry stands, unless the withheld rounds of a sustain drill end with the drill while the line is UP, as a
trip ends it: a MISSING node is then ACTIVE with its misses cleared (R139, R141, R160). -/
structure State.NodeStands (s t : State) (p : Nat) : Prop where
  returns : s.line.state = .up → (∃ tag left, s.ride.drill = some ⟨tag, .withheld, left⟩) → t.ride.drill = none → 1 ≤ p →
              p ≤ s.config.nodes.length → (s.node p).state = .missing →
              t.node p = { s.node p with state := .active, misses := 0 }
  stands  : s.line.state ≠ .up ∨ (∀ tag left, s.ride.drill ≠ some ⟨tag, .withheld, left⟩) ∨ t.ride.drill ≠ none ∨
              p = 0 ∨ s.config.nodes.length < p ∨ (s.node p).state ≠ .missing → t.node p = s.node p

/-- The last result answers a directive (R177). -/
def State.Answers (s t : State) (tag : BitVec 16) (kind : DirectiveKind) (outcome : ResultOutcome)
    (reason : Option Reason) (detail : List Nat) : Prop :=
  t.directive.resultCount = (s.directive.resultCount + 1) % 65536 ∧
    t.directive.result = some ⟨tag, kind.code, outcome, reason, detail, t.directive.resultCount⟩

/-- The safe writes of a list of words under a configuration, in order (R84). -/
def safeWritesOf (c : FlumeConfig) (words : List WordRef) : List MotionWrite :=
  words.map fun w => ⟨w, c.wordAddr w, safeValue w.bank, .safe, false⟩

/-- A ride model with nothing in it, for a configuration (R20, R21). -/
structure State.EmptyModel (t : State) (c : FlumeConfig) : Prop where
  segments     : t.tracker.segments = c.segments.map fun _ => ⟨none, []⟩
  eyes         : t.tracker.eyes = c.edges.map fun _ => ⟨.unknown, none⟩
  reservations : t.tracker.reservations = []
  roster       : t.tracker.roster = List.replicate 32 BoatRecord.vacant
  entries      : t.hold.entries = []
  last         : t.verdict.last = none
  shadows      : ∀ w, t.shadow w = none

/-- The items of the status page: every item but the roster records and the result area, each table's within its range
(R178, 11.2). -/
def ImageItem.OnPage : ImageItem → Prop
  | .segment g => g < 24
  | .berth i => i < 4
  | .node p => 1 ≤ p ∧ p ≤ 16
  | .roster _ | .result => False
  | .ride | .config | .producer | .consumer | .passage | .line | .lastVerdict | .pacer | .shadows | .holdQueue | .brake
  | .reservations | .spare => True

/-- The whole status page is asked for (R178). -/
def State.AsksPage (t : State) : Prop := ∀ i : ImageItem, i.OnPage → t.passage.upkeep.any (·.asksFor i) = true

/-- A configuration image has been taken (R179, R187, R188): OFFLINE(DISCOVERING) with the permit off, the image in
effect, an empty ride model, a discovery started, the save of the image begun, ring indices 0, both index words asked
for before any record (R182), and every roster record asked for with its STAY word cleared, and the whole status page.
-/
structure State.TakesImage (s t : State) (i : Image) : Prop where
  ride      : t.ride = { s.ride with state := .offline .discovering, permit := false }
  active    : t.loader.active = some i.config
  crc       : t.loader.activeCrc = i.crc
  source    : t.loader.source = .commit
  pending   : t.loader.pendingImage = none
  save      : t.loader.save = .saving 0 s.clock i.bytes i.crc
  model     : t.EmptyModel i.config
  line      : t.line.state = .discovering
  discovery : t.line.discovery = .breaking s.clock
  memory    : t.memory = s.memory
  ring      : t.report.published = 0 ∧ t.report.consumer = 0
  indices   : ∃ front back, t.passage.upkeep = front ++ back ∧ front.any (·.asksFor .producer) = true ∧
                front.any (·.asksFor .consumer) = true ∧ ∀ u ∈ front, ∀ slot gap time r next,
                  u ≠ .record slot gap time r next
  rosters   : ∀ b, 1 ≤ b → b ≤ 32 → UpkeepRequest.image (.roster b) true ∈ t.passage.upkeep
  page      : t.AsksPage

/-! ## The pacer and the conveyors -/

/-- The pacer holds the run load and stage 2 as the ride model gives them (R94, R96). -/
def State.HoldsRunLoad (s : State) : Prop :=
  ∀ p, s.berth.pacer = some p → p.runLoad = s.runLoad ∧ p.stage2 = s.stage2Met

/-- Each conveyor record holds the stall condition that the ride model gives (R115). -/
def State.HoldsStalls (s : State) : Prop := ∀ c < 4, ∀ x, s.conveyor c = some x → x.stalled = s.stallCondition c

/-- The stall stop of a conveyor: 0 to its speed word (R116). -/
def State.stallStopWrite (s : State) (c : Nat) : MotionWrite :=
  ⟨⟨.speed, c⟩, s.config.wordAddr ⟨.speed, c⟩, 0, .stallStop c, false⟩

/-- The STALL-STOP record of a conveyor: the CREST's head boat and the speed shadow (R116, log entry 45). -/
def State.stallStopReport (s : State) (c v : Nat) : Report :=
  .stallStop c (((s.config.crestSegment c).map s.head).getD 0) v

/-! ## Floors and dwell clocks -/

/-- A change has touched what the floor of a run-out is computed from: boats or their arrival times in the run-out or its
feed segment, or the reservations into the run-out (R107). -/
def State.touchesFloor (s t : State) (r : Nat) : Prop :=
  ∃ g, t.config.runoutSegment r = some g ∧
    (s.occupancy g ≠ t.occupancy g ∨ s.reservationsInto g ≠ t.reservationsInto g ∨
      ∃ f, (t.config.segment g).feed = some f ∧ s.occupancy f ≠ t.occupancy f)

/-- A run-out holds the floor that the ride model gives it (R106, R107). -/
def State.HoldsFloor (s : State) (r : Nat) : Prop := ∀ x, s.runout r = some x → x.floor = s.floorOf r

/-- Each run-out holds the floor, and its boats the next step times, that the ride model gave it at one moment at or before
the ride clock: between two of the events that recompute it, only time has passed (R106, R107). -/
def State.HoldsFloors (s : State) : Prop :=
  ∀ r g x, s.config.runoutSegment r = some g → s.runout r = some x →
    ∃ now ≤ s.clock, x.floor = { s with clock := now }.floorOf r ∧
      ∀ b ∈ s.queue g, (s.boat b).nextStep = s.firstStepAfter b now

/-- The floor lift of a run-out (R108). -/
def State.liftWrite (s : State) (r floor : Nat) : MotionWrite :=
  ⟨⟨.fin, r⟩, s.config.wordAddr ⟨.fin, r⟩, floor, .floorLift r, false⟩

/-- A floor that stands above the known fin shadow is carried by a lift that has not completed (R62, R108). -/
def State.Lifts (s : State) (r : Nat) : Prop :=
  ∀ v, s.shadow ⟨.fin, r⟩ = some v → v < s.brakeFloor r →
    ∃ m ∈ s.unfinished, m.word = ⟨.fin, r⟩ ∧ m.origin = .floorLift r ∧ m.oldMap = false ∧ s.brakeFloor r ≤ m.value

/-- A segment's successor has gone from at capacity to having room (R45). -/
def State.gainsRoom (s t : State) (g : Nat) : Prop := s.successorFull g = true ∧ t.successorOpen g = true

/-! ## Image items -/

/-- The content of an image item differs in a way that calls for its rewrite: for the line block the line state (R142), for
a berth block every byte but its age (R87), for the brake block also which of its fields hold nothing (R119), for every
other item of the roster, the status page and the result area any of its bytes (R172, R178). The index words and the spare
bytes hold nothing that an image brings up to date (R181, R182, R190). -/
def State.itemChanged (s t : State) (i : ImageItem) : Prop :=
  let differs := itemBytes s i ≠ itemBytes t i
  match i with
  | .roster b => 1 ≤ b ∧ b ≤ 32 ∧ differs
  | .segment g => g < 24 ∧ differs
  | .node p => 1 ≤ p ∧ p ≤ 16 ∧ differs
  | .line => s.line.state ≠ t.line.state
  | .berth k => k < 4 ∧ ∃ j, j ≠ 2 ∧ (itemBytes s (.berth k))[j]? ≠ (itemBytes t (.berth k))[j]?
  | .brake => differs ∨ absentBrakeFields s ≠ absentBrakeFields t
  | .reservations | .lastVerdict | .holdQueue | .pacer | .shadows | .ride | .passage | .config | .result => differs
  | .producer | .consumer | .spare => False

/-! ## Directives -/

/-- A directive with its arguments at hand can be dispatched: RESET is not asserted, LOADING is over, and nothing makes the
Directive Unit busy for its kind (R144, R175). -/
structure State.Takes (s : State) (k : DirectiveKind) : Prop where
  live   : s.resetAsserted = false
  loaded : s.ride.state ≠ .loading
  free   : s.busyFor k = none

end Sys2Proof.Machine
end

