-- ==== Sys2Proof/Certificates/Slice0/Obligations.lean ====
section
/-!
DEFINITION. The statements for the provers. Each says what its docstring says, for every state and operands that meet its
premises. A clause that rests on the model's own choice names the log entry.
-/

open Sys2Proof Sys2Proof.Machine

/-! ## The step -/

/-- With a command at the front of the queue, a step is that command's effect on the state with the queue's rest. -/
def Obligations.StepRunsTheFrontCommand : Prop :=
  ∀ (c : Instr) (rest : List Instr) (s : State), s.pending = c :: rest → step s = exec c { s with pending := rest }

/-- With no command waiting, a step lets one millisecond pass on the ride clock, which stands at 0 under RESET; nothing
else changes (the model's choice, log entry 1). -/
def Obligations.EmptyQueueLetsOneMillisecondPass : Prop :=
  ∀ s : State, s.pending = [] →
    (s.resetAsserted = false → step s = .next { s with clock := s.clock + 1 }) ∧
      (s.resetAsserted = true → step s = .next s)

/-- The state after reset keeps every law, and holds what the spec states for RESET: the ride in LOADING with the permit
off, the line DOWN with a blank node table, 32 ABSENT boats with ABSENT values, no shadow known, no entry, reservation,
segment, eye, berth, run-out, conveyor, pacer or configuration, empty arbiter classes, cleared trip, last-verdict and
passage blocks, an idle Directive Unit, an idle save, ATTN off (R20, R50, R66, R69, R88, R99, R104, R114, R120, R121, R143,
R150, R169, R171, R174, R179, R181). Nothing listed in memory, a clock at 0 under RESET, RESET asserted at the start, and
ring indices 0 with a clear gap flag are the model's choices (log entries 4, 5, 30 and 36). -/
def Obligations.ResetStateKeepsEveryLaw : Prop :=
  State.reset.Sound ∧ State.reset.resetAsserted = true ∧ State.reset.clock = 0 ∧ State.reset.pending = [] ∧
    State.reset.memory = [] ∧ State.reset.ride.state = .loading ∧ State.reset.ride.permit = false ∧
    State.reset.ride.trip = { first := none, detailKind := .none, detail := 0, time := 0, causes := [], additional := 0 } ∧
    State.reset.ride.drill = none ∧ State.reset.line.state = .down ∧ State.reset.line.tx = .released ∧
    (∀ p, 1 ≤ p → p ≤ 16 → State.reset.node p =
      { expected := none, discovered := none, serial := 0, state := .absent, misses := 0, estopOpen := false,
        sustained := false, result := .untested }) ∧
    (∀ b, 1 ≤ b → b ≤ 32 → State.reset.boat b =
      { status := .absent, segment := none, position := 0, arrival := 0, weightClass := none, lastWeight := 0,
        weighStale := false, identityDoubt := false, launchCount := 0, lastEdge := none, stay := false, dwell := .none,
        nextStep := none }) ∧
    (∀ w, State.reset.shadow w = none) ∧ State.reset.verdict.last = none ∧ State.reset.hold.entries = [] ∧
    State.reset.tracker.segments = [] ∧ State.reset.tracker.eyes = [] ∧ State.reset.tracker.reservations = [] ∧
    State.reset.berth = { berths := [], pacer := none } ∧ State.reset.brake.runouts = [] ∧
    State.reset.brake.conveyors = [] ∧ State.reset.passage.motion = [] ∧ State.reset.passage.port = none ∧
    State.reset.passage.access = none ∧ State.reset.passage.upkeep = [] ∧ State.reset.passage.upkeepWait = 0 ∧
    State.reset.passage.refusals = 0 ∧ State.reset.passage.lastRefusal = none ∧
    State.reset.directive.argument = none ∧ State.reset.directive.long = none ∧
    State.reset.directive.resultCount = 0 ∧
    State.reset.report = { assigned := 0, consumer := 0, published := 0, gap := false } ∧
    State.reset.loader.active = none ∧ State.reset.loader.activeCrc = 0 ∧ State.reset.loader.source = .none ∧
    State.reset.loader.pendingImage = none ∧ State.reset.loader.save = .idle ∧ State.reset.loader.failure = (0, 0) ∧
    State.reset.attn = false

/-- A command that the pins and the trigger word can carry is always answered with a next state; one that they cannot
carry faults and no command is refused. That a command whose event cannot come about changes nothing, and the fault of
unencodable operands, are the model's choices (log entries 2 and 29). -/
def Obligations.EveryEncodableCommandAnswers : Prop :=
  ∀ (c : Instr) (s : State),
    (c.wellFormed = true → ∃ t, exec c s = .next t) ∧ (c.wellFormed = false → exec c s = .fault .unencodable)

/-! ## What a command may touch -/

/-- A command changes only the parts of the state that `mayChange` lists for it, and never the queue of commands. -/
def Obligations.CommandsChangeOnlyTheirParts : Prop :=
  ∀ (c : Instr) (s t : State), exec c s = .next t → Keeps (mayChange c) s t ∧ t.pending = s.pending

/-- Every byte of image memory outside the bytes that a command stores to reads as before. -/
def Obligations.StoresReachOnlyTheirBytes : Prop :=
  ∀ (c : Instr) (s t : State) (k : Nat), s.memory.wf = true → exec c s = .next t → ¬ s.storesTo c k →
    t.memory.read k = s.memory.read k

/-! ## Laws that every step keeps -/

/-- Image memory and the serial store stay in canonical form. -/
def Obligations.MemoryStaysCanonical : Prop :=
  ∀ s t : State, s.memoryCanonical → step s = .next t → t.memoryCanonical

/-- RIDE-PERMIT is asserted exactly in STOPPED and RUNNING, at every step (the eighth law). -/
def Obligations.PermitFollowsTheRideState : Prop :=
  ∀ s t : State, s.permitLaw → step s = .next t → t.permitLaw

/-- The hold queue never holds more than 8 entries or two for one word, and outside RUNNING it is empty and no performance
waits or holds the memory port (the fourth and the fifth law; for the port see log entry 18). -/
def Obligations.HoldQueueKeepsItsLaws : Prop := ∀ s t : State, s.Sound → step s = .next t → t.HoldLaw

/-- The tables stand as the configuration in effect has them: a live record for each segment and each eye, for each
configured berth, run-out and conveyor index and for no other, a pacer exactly where a configuration is in effect, the
expected kind of each node position, no shadow for an unbound word; the pending image spells a configuration as an accepted
one is laid, no record waits without a configuration, and one is in effect exactly where the ride state says so. -/
def Obligations.TablesMatchTheConfiguration : Prop := ∀ s t : State, s.Sound → step s = .next t → t.TablesLaw

/-- A boat in a queue is PLACED there and stands in that queue alone, once, at its position; a PLACED boat stands in one
(the second law). -/
def Obligations.BoatQueuesAgreeWithTheRoster : Prop := ∀ s t : State, s.Sound → step s = .next t → t.RosterLaw

/-- The boats in a SOUND segment and the reservations into it never exceed its capacity (the first law). -/
def Obligations.CapacityLawIsKept : Prop := ∀ s t : State, s.Sound → step s = .next t → t.capacityLaw

/-- A boat holds at most one reservation, and stands at the head of the gated segment it leaves (the third law). -/
def Obligations.ReservationLawIsKept : Prop := ∀ s t : State, s.Sound → step s = .next t → t.ReservationLaw

/-- The interposer's own writes other than performances move their word toward its safe value or leave it there (the
seventh law). And what the tenth law rests on: while its fin shadow is known, a run-out's brake floor stands at or below
the shadow or its waiting lift; a waiting lift is a floor lift of its value that waits in the MOTION class or holds the
memory port; floors and profile stages are 4 at most; a fin write while the shadow is unknown carries 4; and no fin word
is held or performed. -/
def Obligations.MotionWritesMoveTowardSafe : Prop :=
  ∀ s t : State, s.Sound → step s = .next t → t.MotionLaw ∧ t.FloorLaw

/-- Ring indices stay in the ring and waiting records fill its slots in the order of their events (the eleventh law). -/
def Obligations.RingRecordsStandInOrder : Prop := ∀ s t : State, s.Sound → step s = .next t → t.RingLaw

/-- Under RESET every unit keeps its reset values (R173), and of the commands only RESET_RELEASE, an access, which ends at
once with ERROR and zero words, and a change of the CTRL-RESET-SENSE pin (log entry 28) have any effect. -/
def Obligations.UnderResetNothingElseActs : Prop :=
  (∀ s t : State, s.Sound → step s = .next t → t.ResetLaw) ∧
    ∀ (c : Instr) (s t : State), s.resetAsserted = true → exec c s = .next t →
      (∀ a, c = .controllerAccessArrival a → t = { s with passage := { s.passage with
        response := some ⟨false, if a.write then [] else List.replicate a.beats 0⟩ } }) ∧
      (∀ x, c = .ctrlResetSense x → t = { s with sensePin := x }) ∧
      (c ≠ .resetRelease → (∀ a, c ≠ .controllerAccessArrival a) → (∀ x, c ≠ .ctrlResetSense x) → t = s)

/-- The commands by which a RESEAT or a take can come about, and those of RESET and LOADING, which build the model. -/
def soundingCommand : Instr → Bool
  | .reseat _ | .argumentReadComplete | .triggerWrite | .stopRide _ | .resetTrip _ | .stagingReadComplete
  | .enumerationAnswer _ | .enumerationTimeout | .resetAssert _ | .storeImageRead => true
  | .resetRelease | .storeReadTimeout | .endOfLoading | .controllerAccessArrival _ | .controllerRead | .controllerWrite
  | .writeBurst | .windowAccess | .releaseWrite | .routeWrite | .finWrite | .speedWrite | .stayWrite
  | .consumerIndexWrite | .startRide _ | .stopNow _ | .drillTrip _ | .drillSustain _ | .addBoat _ | .withdrawBoat _
  | .setPace _ | .setProfile _ | .commitConfig _ | .restartLine _ | .savePageAck | .savePageTimeout | .motionWriteGrant
  | .motionWriteComplete | .reportRecordWrite | .imageItemWrite | .round | .nodeReport _ | .slotMiss _ | .roundSilence
  | .stuckLow | .breakEnd | .reservationLapse _ | .dwellExpiry _ | .holdExpiry _ | .pacerIntervalElapsed
  | .profileStep _ | .finLagExpiry _ | .ctrlResetSense _ | .lineLevelChange _ => false

/-- A segment's condition goes from FAULTED to SOUND, or its fault cause changes, only through RESEAT or a take, or
through RESET and LOADING (the twelfth law); a RESEAT does so for the segment it names alone, also where the read of its
last argument dispatches it; STOP-RIDE, RESET-TRIP, a trigger with no arguments and the end of a discovery only where an
image is pending, which they take; and the last staging read of a commit only where it takes its valid image, outside
RUNNING and TRIPPED. -/
def Obligations.FaultedStaysFaulted : Prop :=
  (∀ (c : Instr) (s t : State) (g : Nat), soundingCommand c = false → exec c s = .next t → s.faulted g = true →
    (t.segment g).fault = (s.segment g).fault) ∧
  (∀ (r : Request) (s t : State) (g : Nat), exec (.reseat r) s = .next t → s.faulted g = true →
    (r.args.head?.map (·.toNat)) ≠ some g → (t.segment g).fault = (s.segment g).fault) ∧
  (∀ (c : Instr) (s t : State) (g : Nat), ((∃ r, c = .stopRide r) ∨ (∃ r, c = .resetTrip r) ∨
    (∃ f, c = .enumerationAnswer f) ∨ c = .enumerationTimeout ∨ c = .triggerWrite) → s.loader.pendingImage = none →
    exec c s = .next t → s.faulted g = true → (t.segment g).fault = (s.segment g).fault) ∧
  (∀ (s t : State) (g : Nat), exec .argumentReadComplete s = .next t → s.faulted g = true →
    (∀ i x, s.upkeepGrant = some (.argument i) → s.directive.argument = some x → x.kind = .reseat →
      (x.read ++ [s.memory.readWord (0xFFF600 + 4 * i)]).head?.map (·.toNat) ≠ some g) →
    (t.segment g).fault = (s.segment g).fault) ∧
  ∀ (s t : State) (g : Nat), exec .stagingReadComplete s = .next t → s.faulted g = true →
    (s.ride.state = .running ∨ s.ride.state = .tripped ∨
      ∀ offset words tag n sofar i, s.upkeepGrant = some (.staging offset words) →
        s.directive.long = some (.commit tag n sofar) →
        n ≤ (sofar ++ Memory.readBytes s.memory (0xFFF700 + offset) (4 * words)).length →
        validate (sofar ++ Memory.readBytes s.memory (0xFFF700 + offset) (4 * words)) (some n) ≠ .valid i) →
    (t.segment g).fault = (s.segment g).fault

/-- An image that passes the thirteen checks spells a configuration with 1 to 24 segments, 1 to 16 nodes, a ring of at
least 16 records, edges that join two different configured segments, one or two exits for each segment, launch edges out
of gated segments, indices from 0 to 3, and profile stages from 0 to 4; it carries the image's own CRC. -/
def Obligations.AcceptedImagesAreLaid : Prop :=
  ∀ (bs : List Byte) (commit : Option Nat) (i : Image), validate bs commit = .valid i →
    i.config.Laid ∧ i.crc = imageCrc bs ∧ i.bytes = bs.take (imageLength bs) ∧ commit.all (· == imageLength bs) = true

/-! ## RESET and LOADING -/

/-- RESET_ASSERT puts every unit at its reset values; the commands that wait, the pin and the serial store are kept. A
controller access that was held ends with ERROR, a read with zero words. Memory keeps what it holds, with the beats that
it had completed of a granted write: none for `n` = 0, the first `n` of a burst that is performed, and the store of a
single write (the operand is the model's, log entry 9). RESET_RELEASE begins LOADING: the clock is 0, the read of the
store begins, the level of CTRL-RESET-SENSE is taken, and nothing else changes (R144, R153, R173). -/
def Obligations.ResetClearsAndReleaseLoads : Prop :=
  (∀ (n : Nat) (s : State), s.resetAsserted = false →
    ∃ t, exec (.resetAssert n) s = .next t ∧ t.resetAsserted = true ∧ t.ResetLaw ∧ t.pending = s.pending ∧
      t.sensePin = s.sensePin ∧ t.loader.store = s.loader.store ∧
      t.passage.response =
        s.passage.access.map (fun a => ⟨false, if a.write then [] else List.replicate a.beats 0⟩) ∧
      (s.passage.access = none ∨ s.passage.nextGrant ≠ .passage ∨ n = 0 → t.memory = s.memory) ∧
      (∀ a, s.passage.access = some a → a.write = false → t.memory = s.memory) ∧
      (∀ a, s.Grants a → s.ride.state ≠ .loading → a.write = true → 2 ≤ a.beats → a.pastTop = false →
        (∀ k ∈ a.words, (s.classify k).burstable = true) →
        t.memory = (a.beatList.take n).foldl (fun m x => m.writeLanes x.1 a.lanes x.2) s.memory) ∧
      (∀ a u, s.Grants a → a.write = true → a.beats = 1 → 1 ≤ n → exec (s.rowOf a).command s = .next u →
        t.memory = u.memory)) ∧
  ∀ s : State, s.resetAsserted = true →
    exec .resetRelease s = .next { s with
      resetAsserted := false, clock := 0, ride := { s.ride with senseLevel := s.sensePin },
      loader := { s.loader with phase := .reading } }

/-- The read of the store ends in one of three ways. A valid image: every table is built from it, with a record for each
configured berth, run-out and conveyor index and for no other, every shadow is unknown, the ring is reset, the active
CRC and the source STORE are recorded, and the safe writes are queued in the order release, route, fin, speed, with
every roster record asked for, its STAY word cleared. An invalid image: its check and item are recorded and no table is
built. No acknowledgement, from 20 ms on: check 14 with item 0. In each case the whole status page and the result area
are asked for (R20, R50, R84, R87, R99, R104, R105, R114, R121, R182, R184). That the timeout may come at any time from
then on, and has no effect before, is the model's choice (log entries 2 and 31). -/
def Obligations.StoreReadBuildsTheTables : Prop :=
  ∀ s : State, s.resetAsserted = false → s.ride.state = .loading → s.loader.phase = .reading → s.TablesLaw →
    (∀ i, validate (storeImage s.loader.store) none = .valid i →
      ∃ t, exec .storeImageRead s = .next t ∧ t.EmptyModel i.config ∧
        t.loader = { s.loader with active := some i.config, activeCrc := i.crc, source := .store, phase := .installed } ∧
        t.berth.pacer.map (fun p => (p.interval, p.buffer, p.lastLaunch, p.runLoad)) =
          some (i.config.launchInterval, i.config.launchInterval, none, 0) ∧
        t.berth.berths.map (·.index) = indices4.filter (fun k => (i.config.berthSegment k).isSome) ∧
        t.brake.runouts.map (·.index) = indices4.filter (fun k => (i.config.runoutSegment k).isSome) ∧
        t.brake.conveyors.map (·.index) = indices4.filter (fun k => (i.config.liftSegment k).isSome) ∧
        (∀ b ∈ t.berth.berths, b.lastWeight = 65535 ∧ b.age = 255) ∧
        (∀ r ∈ t.brake.runouts, r.floor = 0 ∧ r.feedback = .none ∧ r.timer = .idle ∧ r.waitingLift = none) ∧
        (∀ x ∈ t.brake.conveyors, x.stalled = false ∧ x.stopWaiting = false) ∧
        t.brake.active = i.config.profiles ∧ t.brake.buffer = i.config.profiles ∧ t.brake.pending = false ∧
        (∀ p, 1 ≤ p → p ≤ 16 → (t.node p).expected = i.config.nodes[p - 1]?) ∧
        t.report = { assigned := 0, consumer := 0, published := 0, gap := false } ∧
        t.passage.motion = s.passage.motion ++ safeWritesOf i.config
          (i.config.boundWords .release ++ i.config.boundWords .route ++ i.config.boundWords .fin ++
            i.config.boundWords .speed) ∧
        (s.passage.upkeep = [] → ∀ b, 1 ≤ b → b ≤ 32 →
          UpkeepRequest.image (.roster b) true ∈ t.passage.upkeep) ∧
        t.AsksPage ∧ t.passage.upkeep.any (·.asksFor .result) = true ∧ t.ride = s.ride ∧ t.memory = s.memory) ∧
    (∀ check item, validate (storeImage s.loader.store) none = .invalid check item →
      ∃ t, exec .storeImageRead s = .next t ∧ Keeps [.passage, .loader] s t ∧
        t.loader = { s.loader with failure := (check, item), phase := .invalid } ∧
        t.AsksPage ∧ t.passage.upkeep.any (·.asksFor .result) = true ∧ t.passage.motion = s.passage.motion) ∧
    (s.clock < 20 → exec .storeReadTimeout s = .next s) ∧
    (20 ≤ s.clock → ∃ t, exec .storeReadTimeout s = .next t ∧ Keeps [.passage, .loader] s t ∧
      t.loader = { s.loader with failure := (14, 0), phase := .invalid } ∧ t.AsksPage ∧
      t.passage.upkeep.any (·.asksFor .result) = true ∧ t.passage.motion = s.passage.motion)

/-- LOADING ends when every write it queued has completed: after a valid image in OFFLINE(DISCOVERING) with a discovery
started and the line held low for the break, after an invalid one in OFFLINE(NO-CONFIG); the permit stays off (R144,
R184). With a valid image the records CONFIG LOADED, STATE and LINE follow one another: the order, the CRC word of the
first and the 0 for a position or count in the last are the model's (log entries 17, 26 and 48). -/
def Obligations.LoadingEnds : Prop :=
  ∀ s : State, s.resetAsserted = false → s.ride.state = .loading → s.passage.motion = [] → s.passage.port = none →
    s.passage.upkeep = [] →
    (s.loader.phase = .installed → ∃ t, exec .endOfLoading s = .next t ∧ t.ride.state = .offline .discovering ∧
      t.ride.permit = false ∧ t.line.state = .discovering ∧ t.line.discovery = .breaking s.clock ∧
      t.line.tx = .lowForBreak ∧ t.loader = { s.loader with phase := .finished } ∧
      (s.configured = true → s.report = { assigned := 0, consumer := 0, published := 0, gap := false } →
        16 ≤ s.config.ringCount → s.inService = false →
        t.waitingReports = [.config .loaded 0 0 s.loader.activeCrc 0,
          .state .loading (.offline .discovering) .endOfLoading, .line .discovering .none 0])) ∧
    (s.loader.phase = .invalid → ∃ t, exec .endOfLoading s = .next t ∧ t.ride.state = .offline .noConfig ∧
      t.ride.permit = false ∧ Keeps [.passage, .ride, .loader] s t ∧ t.loader = { s.loader with phase := .finished } ∧
      t.waitingReports = [])

/-! ## The controller port -/

/-- The arbiter: while a motion write holds the port nothing is granted; else the oldest motion write; else, with the wait
count at 16, the oldest UPKEEP request; else the controller's access; else the oldest UPKEEP request. The wait count rises
by one, to 16 at most, at each grant of an access while an UPKEEP request waits, is 0 after an UPKEEP grant, and stands
through a grant and a completion of MOTION. That a granted access whose event empties the UPKEEP class and fills it again
keeps the risen count, as a TRIGGER_WRITE does whose directive takes a pending image, is the model's choice (log entry 40).
An access is held with WAIT from its arrival and joins the PASSAGE class, and no other unit changes. During LOADING its
grant answers ERROR, a read with zero words, unrecorded and without memory, whatever its row (R55, R161, R171, R173). -/
def Obligations.AccessArrivesAndLoadingRefuses : Prop :=
  (∀ (a : Access) (s : State), a.wellFormed = true → s.resetAsserted = false → s.passage.access = none →
    ∃ t, exec (.controllerAccessArrival a) s = .next t ∧ Keeps [.passage] s t ∧ t.passage.access = some a ∧
      t.wait = true ∧ t.passage.response = none ∧ t.passage.motion = s.passage.motion ∧
      t.passage.port = s.passage.port) ∧
  (∀ u : PassageUnit,
    (u.port ≠ none → u.nextGrant = .none) ∧
    (u.port = none →
      (u.motion ≠ [] → u.nextGrant = .motion) ∧
      (u.motion = [] →
        (u.upkeep ≠ [] → 16 ≤ u.upkeepWait → u.nextGrant = .upkeep) ∧
        (u.upkeep = [] ∨ u.upkeepWait < 16 →
          (u.access ≠ none → u.nextGrant = .passage) ∧
          (u.access = none → u.nextGrant = if u.upkeep = [] then .none else .upkeep))))) ∧
  (∀ (s : State) (u : UpkeepRequest), s.upkeepGrant = some u ↔
    s.passage.nextGrant = .upkeep ∧ s.passage.upkeep.head? = some u) ∧
  (∀ (s t : State) (a : Access), s.Grants a → exec (s.rowOf a).command s = .next t →
    (s.passage.upkeep ≠ [] → t.passage.upkeepWait = min (s.passage.upkeepWait + 1) 16) ∧
    (s.passage.upkeep = [] → t.passage.upkeepWait = 0)) ∧
  (∀ (c : Instr) (s t : State), c = .motionWriteGrant ∨ c = .motionWriteComplete → exec c s = .next t →
    s.passage.upkeep ≠ [] → t.passage.upkeepWait = s.passage.upkeepWait) ∧
  (∀ (s t : State) (u : UpkeepRequest) (c : Instr), s.resetAsserted = false → s.upkeepGrant = some u →
    (c = .reportRecordWrite ∧ (∃ slot gap time r next, u = .record slot gap time r next)) ∨
      (c = .imageItemWrite ∧ (∃ i clear, u = .image i clear)) ∨
      (c = .argumentReadComplete ∧ (∃ i, u = .argument i)) ∨
      (c = .stagingReadComplete ∧ (∃ offset words, u = .staging offset words)) →
    exec c s = .next t → t.passage.upkeepWait = 0) ∧
  ∀ (a : Access) (s : State), s.Grants a → s.ride.state = .loading →
    ∃ t, exec (s.rowOf a).command s = .next t ∧ Keeps [.passage] s t ∧
      t.Ended false (if a.write then [] else List.replicate a.beats 0) ∧ t.passage.refusals = s.passage.refusals ∧
      t.passage.lastRefusal = s.passage.lastRefusal

/-- CONTROLLER_READ and a WINDOW_ACCESS that reads: a granted read that does not run past the top of memory ends with DONE
and one word for each beat: the word as memory holds it, through a window the roster word of the window's boat, and zero
from a vacant window. No other unit changes (R52, R101, R102, R103, R165, R167). -/
def Obligations.ReadsReturnWhatMemoryHolds : Prop :=
  ∀ (a : Access) (s : State), s.Grants a → s.ride.state ≠ .loading → a.write = false → a.pastTop = false →
    (s.rowOf a = .read ∨ s.rowOf a = .window) ∧
    ∃ t data, exec (s.rowOf a).command s = .next t ∧ Keeps [.passage] s t ∧ t.Ended true data ∧
      data.length = a.beats ∧
      ∀ i < a.beats,
        ((∀ w o, s.classify (a.word + 4 * i) ≠ .window w o) → data[i]? = some (s.memory.readWord (a.word + 4 * i))) ∧
        (∀ w o, s.classify (a.word + 4 * i) = .window w o →
          (s.windowBoat w = 0 → data[i]? = some 0) ∧
          (∀ b, s.windowBoat w = b + 1 →
            data[i]? = some (s.memory.readWord (s.config.map.roster.base + 32 * b + o))))

/-- A refusal by the port: ERROR, a read with zero words, memory and every other unit as before, the refusal counted and
recorded, with the passage block's image asked for (R169). -/
def PortRefuses (s t : State) (a : Access) (reason : Reason) : Prop :=
  t.Ended false (if a.write then [] else List.replicate a.beats 0) ∧ Keeps [.passage] s t ∧
    t.passage.refusals = min (s.passage.refusals + 1) 65535 ∧
    t.passage.lastRefusal = some ⟨s.clock, a.word, a.write, a.beats, reason⟩ ∧
    t.passage.upkeep.any (·.asksFor .passage) = true

/-- The classes of words. The service page: FFF044h the consumer index word, the rest to FFF5FFh STATUS; FFF600h the
trigger word, the directive record and spare from there to FFF67Fh; the result area to FFF6FFh; STAGING to the top.
Below it, with no configuration every word is PLAIN; with one, a word that a bank covers is guarded, with the index of
its place in the bank; one of the ROSTER region is a STAY word at 10h of a record and part-owned elsewhere; then the
ring and the windows, each with the offset in it; and PLAIN is what nothing covers (R163, R164, R165). -/
def ClassesOfWords : Prop :=
  (∀ (s : State) (k : Nat), 0xFFF000 ≤ k →
    (k = 0xFFF044 → s.classify k = .consumer) ∧
    (k < 0xFFF600 → k ≠ 0xFFF044 → s.classify k = .status) ∧
    (k = 0xFFF600 → s.classify k = .trigger) ∧
    (0xFFF600 < k → k < 0xFFF680 → s.classify k = .directiveArea) ∧
    (0xFFF680 ≤ k → k < 0xFFF700 → s.classify k = .resultArea) ∧
    (0xFFF700 ≤ k → s.classify k = .staging)) ∧
  ∀ (s : State) (k : Nat), k < 0xFFF000 →
    let m := s.config.map
    let inside (e : MapEntry) := e.base ≤ k ∧ k < e.base + e.size
    let banked := ∃ b, inside (m.bank b)
    (s.configured = false → s.classify k = .plain) ∧
    (∀ b, inside (m.bank b) → (∀ c, c ≠ b → ¬ inside (m.bank c)) →
      s.classify k = .guarded ⟨b, (k - (m.bank b).base) / 4⟩) ∧
    (¬ banked → inside m.roster →
      ((k - m.roster.base) % 32 = 16 → s.classify k = .stay ((k - m.roster.base) / 32 + 1)) ∧
      ((k - m.roster.base) % 32 ≠ 16 → s.classify k = .rosterPart)) ∧
    (¬ banked → ¬ inside m.roster → inside m.ring → s.classify k = .ring) ∧
    (¬ banked → ¬ inside m.roster → ¬ inside m.ring →
      (∀ w e, w < 4 → m.windows[w]? = some e → inside e → (∀ v < w, ∀ d, m.windows[v]? = some d → ¬ inside d) →
        s.classify k = .window w (k - e.base)) ∧
      ((∀ w < 4, ∀ e, m.windows[w]? = some e → ¬ inside e) → s.classify k = .plain))

/-- The class of every word by its address. CONTROLLER_WRITE: a granted single write to a PLAIN, directive record,
directive spare or STAGING word stores its enabled lanes and ends with DONE; with no lane enabled it changes no byte. A
partial write to a snooped word is refused PARTIAL, a write to a part-owned word PART-OWNED, whatever its lanes (R163 to
R166, R169). -/
def Obligations.SingleWritesStoreOrAreRefused : Prop :=
  ClassesOfWords ∧
  ∀ (a : Access) (s : State), s.Grants a → s.ride.state ≠ .loading → a.write = true → a.beats = 1 →
    (s.classify a.word = .plain ∨ s.classify a.word = .directiveArea ∨ s.classify a.word = .staging →
      ∃ t, exec .controllerWrite s = .next t ∧ Keeps [.memory, .passage] s t ∧ t.Ended true [] ∧
        t.memory = s.memory.writeLanes a.word a.lanes a.value ∧ (a.lanes = 0 → t.memory = s.memory)) ∧
    (a.full = false → ((∃ b, s.classify a.word = .stay b) ∨ s.classify a.word = .consumer ∨
        s.classify a.word = .trigger) →
      ∃ t, exec .controllerWrite s = .next t ∧ PortRefuses s t a .partialWrite) ∧
    (s.classify a.word = .rosterPart ∨ s.classify a.word = .ring ∨ s.classify a.word = .status ∨
        s.classify a.word = .resultArea →
      ∃ t, exec .controllerWrite s = .next t ∧ PortRefuses s t a .partOwned)

/-- WRITE_BURST and the bursts that run past the top of memory. A write burst that touches a guarded word is refused whole
by the Verdict Unit with the reason of the form checks on the lowest one; else one that touches a part-owned, snooped or
window word is refused whole with BURST; else every beat is stored with the burst's lanes and the access ends with DONE. A
burst, read or write, past the word at FFFFFCh is refused with BURST (R55, R167, R169). -/
def Obligations.BurstsStoreEveryBeatOrNone : Prop :=
  ∀ (a : Access) (s : State), s.Grants a → s.ride.state ≠ .loading → 2 ≤ a.beats → a.dataOk = true →
    (a.pastTop = true → ∃ t, exec (s.rowOf a).command s = .next t ∧ PortRefuses s t a .burst) ∧
    (a.write = true → a.pastTop = false →
      ((∀ k ∈ a.words, (s.classify k).burstable = true) →
        ∃ t, exec .writeBurst s = .next t ∧ Keeps [.memory, .passage] s t ∧ t.Ended true [] ∧
          t.memory = (a.words.zip a.data).foldl (fun m x => m.writeLanes x.1 a.lanes x.2) s.memory) ∧
      ((∀ k ∈ a.words, ∀ w, s.classify k ≠ .guarded w) → (∃ k ∈ a.words, (s.classify k).burstable = false) →
        ∃ t, exec .writeBurst s = .next t ∧ PortRefuses s t a .burst) ∧
      (∀ i w v, a.words[i]? = some (a.word + 4 * i) → s.classify (a.word + 4 * i) = .guarded w →
        (∀ j < i, ∀ x, s.classify (a.word + 4 * j) ≠ .guarded x) → a.data[i]? = some v →
        ∃ t, exec .writeBurst s = .next t ∧ t.Ended false [] ∧ t.memory = s.memory ∧ t.hold = s.hold ∧
          t.tracker = s.tracker ∧ t.verdict.shadows = s.verdict.shadows ∧
          t.passage.refusals = s.passage.refusals ∧
          t.verdict.last = some ⟨s.clock, w, v, .refuse, if a.full then .burst else .partialWrite, none, 0⟩))

/-- STAY_WRITE and a WINDOW_ACCESS that writes. A full-word write to a boat's STAY word, in the roster region or through
the window whose boat it is at the grant, is stored there and sets the boat's STAY copy for a value that is not zero and
clears it for zero; no other boat's record and no other part of the ride model changes. Through a window a partial STAY
write is refused PARTIAL, a write to another roster word PART-OWNED, and a write to a vacant window WINDOW-VACANT (R15,
R101, R102, R170). That the block of the last refusal then takes the window's own word address, and not the roster word
behind it, is the model's choice (log entry 41). -/
def Obligations.StayWritesSetTheCopy : Prop :=
  ∀ (a : Access) (s : State), s.Grants a → s.ride.state ≠ .loading → a.write = true → a.beats = 1 → s.RosterLaw →
    (∀ b, a.full = true → s.classify a.word = .stay b → 1 ≤ b → b ≤ 32 →
      ∃ t, exec .stayWrite s = .next t ∧ Keeps [.memory, .passage, .tracker] s t ∧ t.Ended true [] ∧
        t.memory = s.memory.writeWord a.word a.value ∧ t.boat b = { s.boat b with stay := a.value != 0 } ∧
        (∀ x, x ≠ b → t.boat x = s.boat x) ∧ t.tracker = { s.tracker with roster := t.tracker.roster }) ∧
    (∀ w o, s.classify a.word = .window w o →
      (s.windowBoat w = 0 → ∃ t, exec .windowAccess s = .next t ∧ PortRefuses s t a .windowVacant) ∧
      (∀ b, s.windowBoat w = b → 1 ≤ b → b ≤ 32 →
        (o % 32 ≠ 16 → ∃ t, exec .windowAccess s = .next t ∧ PortRefuses s t a .partOwned) ∧
        (o % 32 = 16 → a.full = false → ∃ t, exec .windowAccess s = .next t ∧ PortRefuses s t a .partialWrite) ∧
        (o % 32 = 16 → a.full = true →
          ∃ t, exec .windowAccess s = .next t ∧ Keeps [.memory, .passage, .tracker] s t ∧ t.Ended true [] ∧
            t.memory = s.memory.writeWord (s.config.map.roster.base + 32 * (b - 1) + o) a.value ∧
            t.boat b = { s.boat b with stay := a.value != 0 } ∧ (∀ x, x ≠ b → t.boat x = s.boat x) ∧
            t.tracker = { s.tracker with roster := t.tracker.roster })))

/-- CONSUMER_INDEX_WRITE: a full-word write is stored and C becomes the value modulo N; ATTN follows. With no ring in
effect the write is stored all the same (R168, R181, R182; the copy is then a free value, log entry 12). -/
def Obligations.ConsumerIndexIsTakenModuloN : Prop :=
  ∀ (a : Access) (s : State), s.Grants a → s.ride.state ≠ .loading → a.write = true → a.beats = 1 → a.full = true →
    s.classify a.word = .consumer →
    ∃ t, exec .consumerIndexWrite s = .next t ∧ Keeps [.memory, .passage, .report] s t ∧ t.Ended true [] ∧
      t.memory = s.memory.writeWord a.word a.value ∧ t.report.assigned = s.report.assigned ∧
      t.report.published = s.report.published ∧ t.report.gap = s.report.gap ∧
      (s.configured = true → t.report.consumer = a.value.toNat % s.config.ringCount ∧
        (s.ride.state ≠ .offline .noConfig →
          (t.attn = true ↔ s.report.published ≠ a.value.toNat % s.config.ringCount)))

/-- TRIGGER_WRITE: a full-word write is stored and ends with DONE, and the Directive Unit takes the trigger: kind 0 is
ignored, an unknown kind is answered INVALID UNKNOWN-KIND, STOP-NOW with arguments INVALID BAD-ARGUMENTS, a kind that
the unit is busy for BUSY with what made it busy, any other with a count of 1 to 15 enters the argument phase with one
UPKEEP read for each argument word in ascending order, and one with a count of 0 is dispatched at once: the state is
that of the dispatch, with the image requests of the event's end. The unit is busy for no STOP-NOW; for every other kind
while a directive is in its argument phase or COMMIT-CONFIG in progress; for all of these but START-RIDE while a sustain
drill is in progress; for COMMIT-CONFIG, RESTART-LINE and DRILL while a discovery is in progress; and otherwise for
none. The detail is the kind and tag of what made it busy, 0 for a discovery that no directive started (R168, R174,
R175, R176). That, of several things that make it busy, the detail names the first in this order is the model's choice
(log entry 50). -/
def Obligations.TriggersAreTaken : Prop :=
  (∀ s : State, s.busyFor .stopNow = none ∧
    ∀ k, k ≠ .stopNow →
      (∀ x, s.directive.argument = some x → s.busyFor k = some (x.tag.toNat + 65536 * x.kind.code)) ∧
      (s.directive.argument = none →
        (∀ tag n sofar, s.directive.long = some (.commit tag n sofar) →
          s.busyFor k = some (tag.toNat + 65536 * 11)) ∧
        ((∀ tag n sofar, s.directive.long ≠ some (.commit tag n sofar)) →
          (∀ d, s.ride.drill = some d → k ≠ .startRide → s.busyFor k = some (d.tag.toNat + 65536 * 5)) ∧
          (s.ride.drill = none ∨ k = .startRide →
            (s.line.state = .discovering → k = .commitConfig ∨ k = .restartLine ∨ k = .drill →
              (∀ tag, s.directive.long = some (.restartLine tag) → s.busyFor k = some (tag.toNat + 65536 * 12)) ∧
              (s.directive.long = none → s.busyFor k = some 0)) ∧
            (s.line.state ≠ .discovering ∨ (k ≠ .commitConfig ∧ k ≠ .restartLine ∧ k ≠ .drill) →
              s.busyFor k = none))))) ∧
  ∀ (a : Access) (s : State), s.Grants a → s.ride.state ≠ .loading → a.write = true → a.beats = 1 → a.full = true →
    s.classify a.word = .trigger →
    ∃ t, exec .triggerWrite s = .next t ∧ t.Ended true [] ∧ t.memory = s.memory.writeWord a.word a.value ∧
      (triggerKind a.value = 0 → Keeps [.memory, .passage] s t) ∧
      (triggerKind a.value ≠ 0 → DirectiveKind.ofCode (triggerKind a.value) = none →
        Keeps [.memory, .passage, .directive] s t ∧
        t.directive.resultCount = (s.directive.resultCount + 1) % 65536 ∧
        t.directive.result = some ⟨triggerTag a.value, triggerKind a.value, .invalid, some .unknownKind, [],
          t.directive.resultCount⟩) ∧
      (DirectiveKind.ofCode (triggerKind a.value) = some .stopNow → triggerCount a.value ≠ 0 →
        Keeps [.memory, .passage, .directive] s t ∧
        s.Answers t (triggerTag a.value) .stopNow .invalid (some .badArguments) []) ∧
      (∀ k d, DirectiveKind.ofCode (triggerKind a.value) = some k → s.busyFor k = some d →
        Keeps [.memory, .passage, .directive] s t ∧ s.Answers t (triggerTag a.value) k .busy none [d]) ∧
      (∀ k, DirectiveKind.ofCode (triggerKind a.value) = some k → k ≠ .stopNow → triggerCount a.value ≠ 0 →
        s.busyFor k = none → Keeps [.memory, .passage, .directive] s t ∧
        t.directive = { s.directive with argument := some ⟨triggerTag a.value, k, triggerCount a.value, []⟩ } ∧
        s.passage.upkeep ++ (List.range (triggerCount a.value)).map (fun i => UpkeepRequest.argument (i + 1)) <+:
          t.passage.upkeep) ∧
      (∀ k, DirectiveKind.ofCode (triggerKind a.value) = some k → triggerCount a.value = 0 → s.busyFor k = none →
        t = finish s (dispatch k (triggerTag a.value) []
          { s with
            memory := s.memory.writeWord a.word a.value
            passage := { s.passage with
              access := none, response := some ⟨true, []⟩
              upkeepWait := if s.passage.upkeep = [] then 0 else min (s.passage.upkeepWait + 1) 16 } }))

/-- ARGUMENT_READ_COMPLETE: the word is read as memory holds it at the grant. Before the last one it joins the words read;
with the last one the argument phase is idle and the directive is dispatched with all of them: the state is that of the
dispatch, with the image requests of the event's end (R168, R176). -/
def Obligations.ArgumentReadsEndInDispatch : Prop :=
  ∀ (s : State) (i : Nat) (x : ArgumentPhase), s.resetAsserted = false → s.upkeepGrant = some (.argument i) →
    s.directive.argument = some x →
    (x.read.length + 1 < x.count → ∃ t, exec .argumentReadComplete s = .next t ∧ Keeps [.passage, .directive] s t ∧
      t.directive = { s.directive with
        argument := some { x with read := x.read ++ [s.memory.readWord (0xFFF600 + 4 * i)] } } ∧
      s.passage.upkeep.tail <+: t.passage.upkeep) ∧
    (x.count ≤ x.read.length + 1 → ∃ t, exec .argumentReadComplete s = .next t ∧ t.directive.argument = none ∧
      t = finish s (dispatch x.kind x.tag (x.read ++ [s.memory.readWord (0xFFF600 + 4 * i)])
        { s with directive := { s.directive with argument := none },
                 passage := { s.passage with upkeep := s.passage.upkeep.tail, upkeepWait := 0 } }))

/-! ## Verdicts -/

/-- RELEASE_WRITE, ROUTE_WRITE, FIN_WRITE, SPEED_WRITE: the form checks of a single write, in order, in every ride state
after LOADING: PARTIAL, then UNBOUND, then MALFORMED. A write that fails one is refused with its reason. It supersedes an
entry of its word all the same: the entry leaves the list, and its HOLD-END SUPERSEDED record stands before the write's
VERDICT record (the order is the model's, log entry 13) (R55, R56, R67, R79). -/
def Obligations.FormChecksComeFirst : Prop :=
  ∀ (w : WordRef) (a : Access) (s : State), s.GrantsWord w a →
    (a.full = false →
      ∃ t, exec (bankRow w.bank).command s = .next t ∧ s.Refuses t w a .partialWrite 0) ∧
    (a.full = true → s.config.bound w = false →
      ∃ t, exec (bankRow w.bank).command s = .next t ∧ s.Refuses t w a .unbound 0) ∧
    (a.full = true → s.config.bound w = true → inRange w.bank a.value.toNat = false →
      ∃ t, exec (bankRow w.bank).command s = .next t ∧ s.Refuses t w a .malformed 0)

/-- The kinds of word: their ranges, their safe values and what is toward safe, a route word having no direction; and the
sixth law: a full, bound, in-range single write to a release, fin or speed word that moves it toward its safe value, or
leaves it there, is stored in every ride state after LOADING and leaves the last-verdict block as it was. An entry of the
word is superseded first, with its HOLD-END SUPERSEDED record (first: the model's order, log entry 13) (R49, R79). -/
def Obligations.TowardSafeIsNeverHeldOrRefused : Prop :=
  (∀ v, inRange .release v = true ↔ v = 0 ∨ v = 1) ∧ (∀ v, inRange .route v = true ↔ v = 0 ∨ v = 1) ∧
  (∀ v, inRange .fin v = true ↔ v ≤ 4) ∧ (∀ v, inRange .speed v = true ↔ v ≤ 1000) ∧
  safeValue .release = 0 ∧ safeValue .fin = 4 ∧ safeValue .speed = 0 ∧
  (∀ x v, towardSafe .release x v = true ↔ v = 0) ∧ (∀ x v, towardSafe .fin x v = true ↔ x ≤ v) ∧
  (∀ x v, towardSafe .speed x v = true ↔ v ≤ x) ∧
  ∀ (w : WordRef) (a : Access) (s : State) (x : Nat), s.GrantsWord w a → s.TablesLaw → a.full = true →
    s.config.bound w = true → inRange w.bank a.value.toNat = true → s.shadow w = some x → w.bank ≠ .route →
    towardSafe w.bank x a.value.toNat = true →
    ∃ t, exec (bankRow w.bank).command s = .next t ∧ s.Stores t w a.value.toNat ∧
      t.verdict.last = s.verdict.last ∧ s.tracker.reservations <+: t.tracker.reservations

/-- The ninth law. For the controller's writes: outside RUNNING a full, bound, in-range single write that would move a
release, fin or speed word away from its safe value is refused NOT-RUNNING. For every step: outside RUNNING a shadow of a
release, fin or speed word that changes to another value moves toward the safe value (R57 step 1, R62 step 2, R63 step 2,
R64). -/
def Obligations.AwayFromSafeNeedsRunning : Prop :=
  (∀ (w : WordRef) (a : Access) (s : State) (x : Nat), s.GrantsWord w a → a.full = true → s.config.bound w = true →
    inRange w.bank a.value.toNat = true → s.shadow w = some x → w.bank ≠ .route → s.ride.state ≠ .running →
    towardSafe w.bank x a.value.toNat = false →
    ∃ t, exec (bankRow w.bank).command s = .next t ∧ s.Refuses t w a .notRunning 0) ∧
  ∀ (s t : State) (w : WordRef) (x v : Nat), s.Sound → step s = .next t → s.ride.state ≠ .running → w.bank ≠ .route →
    s.shadow w = some x → t.shadow w = some v → v ≠ x → towardSafe w.bank x v = true

/-- A full-word OPEN for the bound release word of a segment, granted in RUNNING while its shadow is not OPEN. -/
structure OpensClosed (s : State) (g : Nat) (a : Access) : Prop where
  grants  : s.GrantsWord ⟨.release, g⟩ a
  full    : a.full = true
  value   : a.value = 1
  bound   : s.config.bound ⟨.release, g⟩ = true
  running : s.ride.state = .running
  closed  : s.shadow ⟨.release, g⟩ ≠ some 1

/-- The destination edge of a release: the single exit edge, or the branch that the route shadow selects (R7, R58). -/
def TakesExit (s : State) (g e : Nat) : Prop :=
  s.config.exits g = [e] ∨ ∃ e0 e1 i, s.config.exits g = [e0, e1] ∧ (s.config.segment g).route = some i ∧
    ((s.shadow ⟨.route, i⟩ = some 0 ∧ e = e0) ∨ (s.shadow ⟨.route, i⟩ = some 1 ∧ e = e1))

/-- RELEASE_WRITE of OPEN in RUNNING: the checks of R57 and the first of R58, each with its reason: SEGMENT-FAULTED for the
source, SOURCE-EMPTY, BOAT-DOUBT, BOAT-KEPT over a launch edge, SEGMENT-FAULTED for the destination. The last-verdict block
carries the head boat from step 4 on. -/
def Obligations.ReleaseOpenRefusals : Prop :=
  ∀ (g : Nat) (a : Access) (s : State), OpensClosed s g a →
    (s.faulted g = true →
      ∃ t, exec .releaseWrite s = .next t ∧ s.Refuses t ⟨.release, g⟩ a .segmentFaulted 0) ∧
    (s.faulted g = false → s.queue g = [] →
      ∃ t, exec .releaseWrite s = .next t ∧ s.Refuses t ⟨.release, g⟩ a .sourceEmpty 0) ∧
    ∀ b rest, s.faulted g = false → s.queue g = b :: rest →
      ((s.boat b).identityDoubt = true →
        ∃ t, exec .releaseWrite s = .next t ∧ s.Refuses t ⟨.release, g⟩ a .boatDoubt b) ∧
      ((s.boat b).identityDoubt = false → (∃ e ∈ s.config.exits g, s.config.edgeLaunch e = true) →
        (s.boat b).stay = true →
        ∃ t, exec .releaseWrite s = .next t ∧ s.Refuses t ⟨.release, g⟩ a .boatKept b) ∧
      ((s.boat b).identityDoubt = false →
        ((∀ e ∈ s.config.exits g, s.config.edgeLaunch e = false) ∨ (s.boat b).stay = false) →
        ∀ e d, TakesExit s g e → s.config.edges[e]? = some d → s.faulted d.destination = true →
          ∃ t, exec .releaseWrite s = .next t ∧ s.Refuses t ⟨.release, g⟩ a .segmentFaulted b)

/-- RELEASE_WRITE of OPEN in RUNNING that passes those checks, with head boat `b` and destination edge `e`: PASS with no
new reservation of the boat while it holds one, every outstanding one kept; else HOLD ROOM while the destination is at
capacity; else HOLD PACE over a launch edge while the pacer does not permit; else PASS, and a reservation is created
with deadline the clock plus the release window; the run load and stage 2 are then those of the state with it. A HOLD
with 8 entries in the queue is refused HOLD-FULL. An OPEN onto an OPEN shadow is PASSed in RUNNING, and creates no
reservation for the head boat; where the pacer and the conveyor records hold what the model gives them, it changes
nothing of the ride model, and of the hold queue only the word's own entry (R57 to R59, R70, R94, R96). -/
def Obligations.ReleaseOpenPassesOrIsHeld : Prop :=
  (∀ (g : Nat) (a : Access) (s : State) (b : Nat) (rest : List Nat) (e : Nat) (d : EdgeCfg), OpensClosed s g a →
    s.TablesLaw → s.faulted g = false → s.queue g = b :: rest → (s.boat b).identityDoubt = false →
    ((∀ e ∈ s.config.exits g, s.config.edgeLaunch e = false) ∨ (s.boat b).stay = false) →
    TakesExit s g e → s.config.edges[e]? = some d → s.faulted d.destination = false →
    ((∃ r ∈ s.tracker.reservations, r.boat = b) →
      ∃ t, exec .releaseWrite s = .next t ∧ s.Stores t ⟨.release, g⟩ 1 ∧ t.verdict.last = s.verdict.last ∧
        s.tracker.reservations <+: t.tracker.reservations ∧
        ∀ r ∈ t.tracker.reservations, r.boat = b → r ∈ s.tracker.reservations) ∧
    ((∀ r ∈ s.tracker.reservations, r.boat ≠ b) →
      (s.atCapacity d.destination = true →
        ((s.hold.entries.filter (·.word != ⟨.release, g⟩)).length < 8 →
          ∃ t, exec .releaseWrite s = .next t ∧ s.Holds t ⟨.release, g⟩ a 1 false .room b) ∧
        (8 ≤ (s.hold.entries.filter (·.word != ⟨.release, g⟩)).length →
          ∃ t, exec .releaseWrite s = .next t ∧ s.Refuses t ⟨.release, g⟩ a .holdFull b)) ∧
      (s.atCapacity d.destination = false → d.launch = true → s.pacerPermits = false →
        ((s.hold.entries.filter (·.word != ⟨.release, g⟩)).length < 8 →
          ∃ t, exec .releaseWrite s = .next t ∧ s.Holds t ⟨.release, g⟩ a 1 false .pace b) ∧
        (8 ≤ (s.hold.entries.filter (·.word != ⟨.release, g⟩)).length →
          ∃ t, exec .releaseWrite s = .next t ∧ s.Refuses t ⟨.release, g⟩ a .holdFull b)) ∧
      (s.atCapacity d.destination = false → (d.launch = false ∨ s.pacerPermits = true) →
        ∃ t, exec .releaseWrite s = .next t ∧ s.Stores t ⟨.release, g⟩ 1 ∧ t.verdict.last = s.verdict.last ∧
          s.tracker.reservations ++ [⟨b, e, s.clock + (s.config.segment g).releaseWindow⟩] <+:
            t.tracker.reservations ∧
          t.berth.pacer.map (fun p => (p.runLoad, p.stage2)) = some (t.runLoad, t.stage2Met)))) ∧
  ∀ (g : Nat) (a : Access) (s : State), s.GrantsWord ⟨.release, g⟩ a → s.TablesLaw → a.full = true → a.value = 1 →
    s.config.bound ⟨.release, g⟩ = true → s.ride.state = .running → s.shadow ⟨.release, g⟩ = some 1 →
    ∃ t, exec .releaseWrite s = .next t ∧ s.Stores t ⟨.release, g⟩ 1 ∧ t.verdict.last = s.verdict.last ∧
      (s.RosterLaw → ∀ r ∈ t.tracker.reservations, r.boat = s.head g → r ∈ s.tracker.reservations) ∧
      (s.HoldsRunLoad → s.HoldsStalls → t.tracker = s.tracker ∧
        t.hold.entries = s.hold.entries.filter (·.word != ⟨.release, g⟩))

/-- ROUTE_WRITE: a value equal to the shadow is stored; one that turns the diverter is refused ROUTE-BUSY while a
reservation leaves the split or the eye of a branch edge is BLOCKED, and stored otherwise, in every ride state after
LOADING (R60). That each split is asked where several carry the route index is the model's choice (log entry 39). -/
def Obligations.RouteWritesNeedAnIdleSplit : Prop :=
  ∀ (i : Nat) (a : Access) (s : State), s.GrantsWord ⟨.route, i⟩ a → s.TablesLaw → a.full = true →
    s.config.bound ⟨.route, i⟩ = true → inRange .route a.value.toNat = true →
    (s.shadow ⟨.route, i⟩ = some a.value.toNat →
      ∃ t, exec .routeWrite s = .next t ∧ s.Stores t ⟨.route, i⟩ a.value.toNat ∧ t.verdict.last = s.verdict.last) ∧
    (s.shadow ⟨.route, i⟩ ≠ some a.value.toNat →
      ((∃ g ∈ s.config.segmentIds, (s.config.segment g).route = some i ∧
          (s.reservationsFrom g ≠ [] ∨ ∃ e ∈ s.config.exits g, (s.eye e).state = .blocked)) →
        ∃ t, exec .routeWrite s = .next t ∧ s.Refuses t ⟨.route, i⟩ a .routeBusy 0) ∧
      ((∀ g ∈ s.config.segmentIds, (s.config.segment g).route = some i →
          s.reservationsFrom g = [] ∧ ∀ e ∈ s.config.exits g, (s.eye e).state ≠ .blocked) →
        ∃ t, exec .routeWrite s = .next t ∧ s.Stores t ⟨.route, i⟩ a.value.toNat ∧
          t.verdict.last = s.verdict.last))

/-- FIN_WRITE below the shadow in RUNNING: a value at or above the brake floor is stored as written; a value below it is
amended to the floor, and the last-verdict block and the VERDICT record name AMEND FLOOR with the value stored. And the
tenth law, no memory write of a fin word stores a stage below its run-out's brake floor: where the controller's access
is granted next, a known fin shadow stands at or above the floor; a FIN_WRITE that ends with DONE stores a stage at or
above the floor at its grant; a fin write of the part that a grant lets hold the memory port stands at or above the
floor; and where the floor has risen above it since, before its completion, a lift to the floor or higher waits behind
it. That the moment of a motion write is its grant is the model's reading (log entry 54) (R62, R66, R67, R82, R108). -/
def Obligations.FinLoweringStopsAtTheFloor : Prop :=
  (∀ (r : Nat) (a : Access) (s : State) (x : Nat), s.GrantsWord ⟨.fin, r⟩ a → s.TablesLaw → a.full = true →
    s.config.bound ⟨.fin, r⟩ = true → a.value.toNat ≤ 4 → s.shadow ⟨.fin, r⟩ = some x → a.value.toNat < x →
    s.ride.state = .running →
    ∃ t, exec .finWrite s = .next t ∧ s.Stores t ⟨.fin, r⟩ (max a.value.toNat (s.brakeFloor r)) ∧
      (s.brakeFloor r ≤ a.value.toNat → t.verdict.last = s.verdict.last) ∧
      (a.value.toNat < s.brakeFloor r →
        let v : LastVerdict := ⟨s.clock, ⟨.fin, r⟩, a.value, .amend, .floor, some (s.brakeFloor r), 0⟩
        t.verdict.last = some v ∧
          (s.ringTakes ((s.supersededReports ⟨.fin, r⟩).length + 1) →
            s.waitingReports ++ s.supersededReports ⟨.fin, r⟩ ++ [.verdict v] <+: t.waitingReports))) ∧
  (∀ (r : Nat) (s : State) (x : Nat), s.Sound → s.passage.nextGrant = .passage → s.shadow ⟨.fin, r⟩ = some x →
    s.brakeFloor r ≤ x) ∧
  (∀ (r : Nat) (a : Access) (s t : State), s.Sound → s.GrantsWord ⟨.fin, r⟩ a → exec .finWrite s = .next t →
    t.passage.response = some ⟨true, []⟩ → ∃ v, s.brakeFloor r ≤ v ∧ s.Stores t ⟨.fin, r⟩ v) ∧
  (∀ (s t : State) (m : MotionWrite), s.Sound → s.passage.port = none → exec .motionWriteGrant s = .next t →
    t.passage.port = some m → m.word.bank = .fin → m.oldMap = false → t.brakeFloor m.word.index ≤ m.value) ∧
  ∀ (s : State) (m : MotionWrite), s.Sound → s.passage.port = some m → m.word.bank = .fin → m.oldMap = false →
    s.brakeFloor m.word.index ≤ m.value ∨
      ∃ n ∈ s.passage.motion, n.word = m.word ∧ n.origin = .floorLift m.word.index ∧ n.oldMap = false ∧
        m.value < n.value ∧ s.brakeFloor m.word.index ≤ n.value

/-- SPEED_WRITE above the shadow in RUNNING, in the order of R63: SEGMENT-FAULTED for a FAULTED LIFT or CREST; the value
is limited to the maximum speed, and a limited value at or below the shadow is stored at once as AMEND SPEED-LIMIT;
while the stall condition holds the limited value is held CREST, or refused HOLD-FULL with 8 entries; else it is stored,
as AMEND if it was limited and as PASS if not. An AMEND stands in the last-verdict block and in a VERDICT record (R59,
R63, R66, R67). -/
def Obligations.SpeedRaisesAreLimitedOrHeld : Prop :=
  ∀ (c : Nat) (a : Access) (s : State) (x l k : Nat), s.GrantsWord ⟨.speed, c⟩ a → s.TablesLaw → a.full = true →
    s.config.bound ⟨.speed, c⟩ = true → a.value.toNat ≤ 1000 → s.shadow ⟨.speed, c⟩ = some x →
    x < a.value.toNat → s.ride.state = .running → s.config.liftSegment c = some l → s.config.crestSegment c = some k →
    (s.faulted l = true ∨ s.faulted k = true →
      ∃ t, exec .speedWrite s = .next t ∧ s.Refuses t ⟨.speed, c⟩ a .segmentFaulted 0) ∧
    (s.faulted l = false → s.faulted k = false →
      let limited (t : State) :=
        let v : LastVerdict := ⟨s.clock, ⟨.speed, c⟩, a.value, .amend, .speedLimit, some (s.maxSpeed c), 0⟩
        t.verdict.last = some v ∧
          (s.ringTakes ((s.supersededReports ⟨.speed, c⟩).length + 1) →
            s.waitingReports ++ s.supersededReports ⟨.speed, c⟩ ++ [.verdict v] <+: t.waitingReports)
      (s.maxSpeed c < a.value.toNat → s.maxSpeed c ≤ x →
        ∃ t, exec .speedWrite s = .next t ∧ s.Stores t ⟨.speed, c⟩ (s.maxSpeed c) ∧ limited t) ∧
      (x < s.maxSpeed c → s.stallCondition c = true →
        ((s.hold.entries.filter (·.word != ⟨.speed, c⟩)).length < 8 →
          ∃ t, exec .speedWrite s = .next t ∧ s.Holds t ⟨.speed, c⟩ a (min a.value.toNat (s.maxSpeed c))
            (decide (s.maxSpeed c < a.value.toNat)) .crest 0) ∧
        (8 ≤ (s.hold.entries.filter (·.word != ⟨.speed, c⟩)).length →
          ∃ t, exec .speedWrite s = .next t ∧ s.Refuses t ⟨.speed, c⟩ a .holdFull 0)) ∧
      (x < s.maxSpeed c → s.stallCondition c = false →
        ∃ t, exec .speedWrite s = .next t ∧ s.Stores t ⟨.speed, c⟩ (min a.value.toNat (s.maxSpeed c)) ∧
          (a.value.toNat ≤ s.maxSpeed c → t.verdict.last = s.verdict.last) ∧
          (s.maxSpeed c < a.value.toNat → limited t)))

/-! ## The memory port -/

/-- MOTION_WRITE_GRANT: with no write holding the port the oldest motion write is granted. A performance, a write to an
old map's word, a release or a route write, and a write to a word whose shadow is unknown, hold the port. Of the others
a fin write below the fin shadow or below the brake floor, a floor lift at or below the shadow (R108, log entry 20), and
a speed write above the speed shadow are discarded, with no memory write and no record; a discarded lift that is its
run-out's waiting lift clears it. MOTION_WRITE_COMPLETE: memory holds the value at the address of the decision, the port
is free, a bound word's shadow takes the value and no other shadow changes, and a performance is reported PERFORMED,
first among the event's records (the model's order, log entry 13), with the hold queue image asked for; a write to an
old map's word changes nothing but memory (R74, R81, R82, R84, R108; log entry 19). -/
def Obligations.MotionWritesAreCheckedAndCompleted : Prop :=
  (∀ (s : State) (m : MotionWrite) (rest : List MotionWrite), s.resetAsserted = false → s.passage.port = none →
    s.passage.motion = m :: rest →
    ∃ t, exec .motionWriteGrant s = .next t ∧ Keeps [.passage, .brake] s t ∧ t.passage.motion = rest ∧
      t.passage.access = s.passage.access ∧ t.passage.response = s.passage.response ∧
      s.passage.upkeep <+: t.passage.upkeep ∧
      (m.entry? ≠ none ∨ m.oldMap = true ∨ s.shadow m.word = none ∨ m.word.bank = .release ∨ m.word.bank = .route →
        t.passage.port = some m ∧ t.brake = s.brake) ∧
      ∀ v, m.entry? = none → m.oldMap = false → s.shadow m.word = some v →
        (m.word.bank = .speed → m.value ≤ v → t.passage.port = some m ∧ t.brake = s.brake) ∧
        (m.word.bank = .speed → v < m.value → t.passage.port = none) ∧
        (m.word.bank = .fin → v ≤ m.value → s.brakeFloor m.word.index ≤ m.value →
          (m.origin = .floorLift m.word.index → v < m.value) →
          t.passage.port = some m ∧ t.brake = s.brake) ∧
        (m.word.bank = .fin → (m.value < v ∨ m.value < s.brakeFloor m.word.index ∨
            (m.origin = .floorLift m.word.index ∧ m.value ≤ v)) →
          t.passage.port = none ∧ (t.brake.runouts = s.brake.runouts.map fun x =>
            if m.origin = .floorLift x.index ∧ x.waitingLift = some m.value then { x with waitingLift := none }
            else x))) ∧
  ∀ (s : State) (m : MotionWrite), s.resetAsserted = false → s.TablesLaw → s.passage.port = some m →
    ∃ t, exec .motionWriteComplete s = .next t ∧ t.memory = s.memory.writeWord m.addr (BitVec.ofNat 32 m.value) ∧
      t.passage.port = none ∧ t.tracker.segments = s.tracker.segments ∧ t.passage.response = s.passage.response ∧
      (m.oldMap = true → Keeps [.memory, .passage] s t ∧ t.passage.motion = s.passage.motion) ∧
      (m.oldMap = false → s.config.bound m.word = true → t.shadow m.word = some m.value) ∧
      (∀ w, w ≠ m.word → t.shadow w = s.shadow w) ∧
      ∀ h b, m.oldMap = false → m.origin = .performance h b →
        t.passage.upkeep.any (·.asksFor .holdQueue) = true ∧
        (s.ringHasRoom →
          s.waitingReports ++ [.holdEnd h .performed none (s.holdEndBoat h.word)] <+: t.waitingReports)

/-- A record called for is dropped with the gap flag set while the ring is full; otherwise it takes slot P with the gap
mark that the flag gives, P advances modulo N, the flag is cleared and an UPKEEP request is made; with no configuration
nothing happens. REPORT_RECORD_WRITE: the record's 16 bytes stand in its slot, with its kind and gap mark in byte 0 and its
time in word 1, then the producer index word and the published producer take the index after it, and ATTN follows (R180,
R181, 11.3). -/
def Obligations.RecordsFillTheRingInOrder : Prop :=
  (∀ (s : State) (r : Report),
    (s.configured = false → s.callReport r = s) ∧
    (s.configured = true → (s.report.assigned + 1) % s.config.ringCount = s.report.consumer →
      s.callReport r = { s with report := { s.report with gap := true } }) ∧
    (s.configured = true → (s.report.assigned + 1) % s.config.ringCount ≠ s.report.consumer →
      s.callReport r = { s with
        report := { s.report with assigned := (s.report.assigned + 1) % s.config.ringCount, gap := false }
        passage := { s.passage with upkeep := s.passage.upkeep ++
          [.record s.report.assigned s.report.gap s.clock r ((s.report.assigned + 1) % s.config.ringCount)] } })) ∧
  ∀ (s : State) (slot : Nat) (gap : Bool) (time : Nat) (r : Report) (next : Nat), s.resetAsserted = false →
    s.upkeepGrant = some (.record slot gap time r next) → s.memory.wf = true →
    s.config.map.ring.base + 16 * slot + 16 ≤ Config.producerAddr →
    ∃ t, exec .reportRecordWrite s = .next t ∧ Keeps [.memory, .passage, .report] s t ∧
      t.report = { s.report with published := next } ∧ s.passage.upkeep.tail <+: t.passage.upkeep ∧
      t.passage.access = s.passage.access ∧ t.passage.motion = s.passage.motion ∧
      (recordBytes gap time r).length = 16 ∧
      (∀ i < 16, t.memory.read (s.config.map.ring.base + 16 * slot + i) = (recordBytes gap time r).getD i 0) ∧
      t.memory.read (s.config.map.ring.base + 16 * slot) = BitVec.ofNat 8 (r.kind + 128 * gap.toNat) ∧
      t.memory.readWord (s.config.map.ring.base + 16 * slot + 4) = BitVec.ofNat 32 time ∧
      t.memory.readWord Config.producerAddr = BitVec.ofNat 32 next ∧
      (s.ride.state ≠ .loading → s.ride.state ≠ .offline .noConfig → (t.attn = true ↔ next ≠ s.report.consumer))

/-- IMAGE_ITEM_WRITE: the item's bytes stand in memory as they are at the grant, each byte that carries no field zero. A
roster record's STAY word keeps its bytes, and is zero where the request clears it (R15, R16, R172, R178, R190). Where a
field stands in a block, that a take's write clears a STAY word written since the take, and that one request of its own
writes the page's bytes outside the items, are the model's choices (log entries 10, 44 and 52). The end of an event adds
a request for each image item whose content the event changed and for which none waits, once and for no other, and sets
the wait count to 0 where no request waits (log entry 40); so after every command but RESET_ASSERT and RESET_RELEASE,
behind which LOADING writes the whole page, a request waits for every item whose content it changed. -/
def Obligations.ImageItemsAreWrittenAsTheyStand : Prop :=
  (∀ s0 s : State, ∃ asked : List ImageItem, asked.Nodup ∧
    (∀ i, i ∈ asked ↔ s0.itemChanged s i ∧ s.passage.upkeep.any (·.asksFor i) = false) ∧
    finish s0 s = { s with passage := { s.passage with
      upkeep := s.passage.upkeep ++ asked.map (UpkeepRequest.image · false)
      upkeepWait := if s.passage.upkeep = [] ∧ asked = [] then 0 else s.passage.upkeepWait } }) ∧
  (∀ (c : Instr) (s t : State) (i : ImageItem), (∀ n, c ≠ .resetAssert n) → c ≠ .resetRelease → exec c s = .next t →
    s.itemChanged t i → t.passage.upkeep.any (·.asksFor i) = true) ∧
  ∀ (s : State) (item : ImageItem) (clearStay : Bool), s.resetAsserted = false →
    s.upkeepGrant = some (.image item clearStay) → s.memory.wf = true →
    ∃ t, exec .imageItemWrite s = .next t ∧ Keeps [.memory, .passage] s t ∧
      s.passage.upkeep.tail <+: t.passage.upkeep ∧ t.passage.access = s.passage.access ∧
      t.passage.motion = s.passage.motion ∧
      ((∀ b, item ≠ .roster b) → item ≠ .spare →
        ∀ i < (itemPlace item).2, t.memory.read ((itemPlace item).1 + i) = (itemBytes s item).getD i 0) ∧
      (item = .spare → (∀ i < 8, t.memory.read (0xFFF048 + i) = 0) ∧ ∀ i < 32, t.memory.read (0xFFF5E0 + i) = 0) ∧
      (item = .ride → t.memory.read 0xFFF000 = BitVec.ofNat 8 s.ride.state.code) ∧
      (item = .consumer → t.memory.readWord 0xFFF044 = 0) ∧
      (∀ b, item = .roster b →
        (∀ i < 16, t.memory.read (s.config.map.roster.base + 32 * (b - 1) + i) =
          (itemBytes s (.roster b)).getD i 0) ∧
        (∀ i < 12, t.memory.read (s.config.map.roster.base + 32 * (b - 1) + 20 + i) = 0) ∧
        t.memory.readWord (s.config.map.roster.base + 32 * (b - 1) + 16) =
          if clearStay then 0 else s.memory.readWord (s.config.map.roster.base + 32 * (b - 1) + 16))

/-! ## Rounds and slots -/

/-- ROUND: with the line UP, the slots of the last round closed, fewer than 10 silent rounds and the ride clock at the
round's time, the next round's number follows modulo 256 and its time lies 2 ms after the last. Outside the withheld rounds
of a sustain drill the head frame is sent, with TRIP in TRIPPED and UNSUSTAIN outside the drill while a node that is heard
is sustained, and slot 1 opens. In a withheld round nothing is sent and no slot opens; after the tenth the check rounds
begin and each MISSING node returns to ACTIVE (R122, R136, R137, R139, 11.6). That a round waits for the slots of the one
before, and may be taken late, is the model's choice (log entry 15). -/
def Obligations.RoundsBeginOrAreWithheld : Prop :=
  ∀ s : State, s.resetAsserted = false → s.line.state = .up → s.line.slot = none → s.line.silence < 10 →
    s.line.nextRound ≤ s.clock →
    ((s.ride.drill = none ∨ ∃ tag left, s.ride.drill = some ⟨tag, .check, left⟩) →
      ∃ t, exec .round s = .next t ∧ Keeps [.passage, .line] s t ∧
        t.line = { s.line with
          round := (s.line.round + 1) % 256, heard := false, slot := some 1, nextRound := s.line.nextRound + 2
          tx := .frame (withCrc8 [0x5A, BitVec.ofNat 8 ((s.line.round + 1) % 256),
            BitVec.ofNat 8 ((decide (s.ride.state = .tripped)).toNat +
              2 * (decide (s.ride.drill = none ∧ s.sustainedHeard = true)).toNat)]) }) ∧
    (∀ tag left, s.ride.drill = some ⟨tag, .withheld, left + 1⟩ →
      ∃ t, exec .round s = .next t ∧ Keeps [.passage, .line, .ride] s t ∧
        t.line = { s.line with
          round := (s.line.round + 1) % 256, nextRound := s.line.nextRound + 2, tx := .released } ∧
        t.ride = { s.ride with drill := some ⟨tag, .withheld, left⟩ }) ∧
    (∀ tag, s.ride.drill = some ⟨tag, .withheld, 0⟩ →
      ∃ t, exec .round s = .next t ∧ Keeps [.passage, .line, .ride, .report] s t ∧
        t.ride = { s.ride with drill := some ⟨tag, .check, 3⟩ } ∧ t.line.slot = some 1 ∧ t.line.state = .up ∧
        t.line.round = (s.line.round + 1) % 256 ∧ t.line.nextRound = s.line.nextRound + 2 ∧ t.line.heard = false ∧
        (∃ f, t.line.tx = .frame (withCrc8 [0x5A, BitVec.ofNat 8 ((s.line.round + 1) % 256), f]) ∧
          f.getLsbD 1 = false) ∧
        ∀ p, 1 ≤ p → p ≤ s.config.nodes.length →
          t.node p = if (s.node p).state = .missing then { s.node p with state := .active, misses := 0 }
            else s.node p)

/-- The close of a slot: the next slot opens, or after the last one the round closes, with the silence count 0 after a
valid report and one higher, up to 10, without one (R122, R127). -/
structure ClosesSlot (s t : State) (p : Nat) (heard : Bool) : Prop where
  more : p < s.config.nodes.length → t.line.slot = some (p + 1) ∧ t.line.silence = s.line.silence
  last : s.config.nodes.length ≤ p →
    t.line.slot = none ∧ t.line.silence = if heard then 0 else min (s.line.silence + 1) 10

/-- The close of a slot in a check round of a sustain drill, with no trip in the event, by the results that the node
table then holds. After the last slot the check ends where no configured position is UNTESTED, and at the latest with
the third round: no drill is in progress, the result is DONE with the number of FAILED positions and a word with bit k −
1 for each of them (the bits are the model's choice, log entry 51), the DRILL report is the last record, PASSED with no
position FAILED, and the ride block and the node table image are asked for. Else, and at any other slot, the drill goes
on (R140, R141, R159). -/
structure ChecksOn (s t : State) (p : Nat) (tag : BitVec 16) (left : Nat) : Prop where
  within : p < s.config.nodes.length → t.ride = s.ride ∧ t.directive = s.directive
  goesOn : s.config.nodes.length ≤ p → 1 < left →
    (∃ q, 1 ≤ q ∧ q ≤ s.config.nodes.length ∧ (t.node q).result = .untested) →
    t.ride = { s.ride with drill := some ⟨tag, .check, left - 1⟩ } ∧ t.directive = s.directive
  ends   : s.config.nodes.length ≤ p →
    (left ≤ 1 ∨ ∀ q, 1 ≤ q → q ≤ s.config.nodes.length → (t.node q).result ≠ .untested) →
    let failed := s.config.positions.filter fun q => decide ((t.node q).result = .failed)
    t.ride = { s.ride with drill := none } ∧
      (∃ x : Nat, (∀ k, x.testBit k = true ↔ k + 1 ∈ failed) ∧
        s.Answers t tag .drill .done none [failed.length, x]) ∧
      (s.configured = true → t.report.gap = false → t.waitingReports.getLast? =
        some (.drill true (if failed = [] then .passed else .failed) failed.length failed)) ∧
      t.passage.upkeep.any (·.asksFor .ride) = true ∧
      ∀ q, 1 ≤ q → q ≤ 16 → t.passage.upkeep.any (·.asksFor (.node q)) = true

/-- NODE_REPORT: in the slot of position `p` a valid report makes the round heard and closes the slot. A LOST node's report
changes neither its entry nor the model. For a node that is ACTIVE or MISSING: it is ACTIVE, a MISSING one with its misses
cleared; its estop contact and its sustained flag are recorded, and in a check round an UNTESTED result is set; each eye of
its inputs holds the reported state, and the reported counter as its baseline unless the eye is FAULT with its baseline
unset; a fresh weight is the berth's last weight, 65535 above 2000, with age 0, else the age rises by one up to 255; and an
estop contact that changes to OPEN trips the ride from STOPPED or RUNNING with ESTOP and the position as first cause, and
joins the causes in TRIPPED. Its inputs are taken from the highest to the lowest, each configured eye with its state,
counter and the report's tag, and nothing else reaches the model; a run-out that the node senses takes the reported fin
stage and hands a change to its timer. Other nodes stand, but for MISSING ones that return where a trip ends a withheld
round. With no trip, a check round of a sustain drill goes on or ends with the slot as R140 and R159 give (bits of the
result: log entry 51). That the check's result stands though the same report aborts the drill is the model's choice, log
entry 32 (R22 to R24, R26, R28, R89, R90, R111, R124, R125, R138 to R141, R159, R193). -/
def Obligations.NodeReportsAreTaken : Prop :=
  (∀ (s : State) (p i : Nat) (r : NodeReport),
    (s.config.edgeAtEye p i = none → takeInput p r i s = s) ∧
    ∀ e, s.config.edgeAtEye p i = some e →
      takeInput p r i s = takeEye e (r.eyes.getD i .unknown) (r.counters.getD i 0) r.tag s) ∧
  ∀ (s : State) (p : Nat) (f : List Byte), s.resetAsserted = false → s.line.state = .up → s.line.slot = some p →
    s.validReport p f = true → s.TablesLaw →
    ∃ t, exec (.nodeReport f) s = .next t ∧ ClosesSlot s t p true ∧ t.line.heard = true ∧
      (∀ tag left, s.ride.state = .stopped → s.ride.drill = some ⟨tag, .check, left⟩ → t.ride.state = .stopped →
        ChecksOn s t p tag left) ∧
      (∀ q, q ≠ p → s.NodeStands t q) ∧
      (∀ k x, s.runout k = some x → (t.runout k).map (fun y => (y.feedback, y.timer)) =
        ((if (s.node p).state ≠ .lost ∧ s.config.finNode k = some p then setFeedback k (parseReport f).fin s
          else s).runout k).map fun y => (y.feedback, y.timer)) ∧
      (∀ i b, s.config.weighingNode i = some p → s.berthLive i = some b →
        ((s.node p).state = .lost → t.berthLive i = some { b with age := min (b.age + 1) 255 }) ∧
        ((s.node p).state ≠ .lost → t.berthLive i = some
          (if (parseReport f).fresh then
            { b with lastWeight := if (parseReport f).slow ≤ 2000 then (parseReport f).slow else 65535, age := 0 }
           else { b with age := min (b.age + 1) 255 }))) ∧
      ((s.node p).state = .lost → t.node p = s.node p ∧ t.tracker = s.tracker ∧ t.memory = s.memory ∧
        (s.ride.drill = none → t.ride = s.ride)) ∧
      ((s.node p).state = .active ∨ (s.node p).state = .missing →
        t.node p = { s.node p with
          state := .active
          misses := if (s.node p).state = .missing then 0 else (s.node p).misses
          estopOpen := (parseReport f).estopOpen
          sustained := (parseReport f).sustained
          result := if s.checking = true ∧ (s.node p).result = .untested then
              (if (parseReport f).sustained then .passed else .failed)
            else (s.node p).result } ∧
        (∀ i < 4, ∀ e, s.config.edgeAtEye p i = some e →
          (t.eye e).state = (parseReport f).eyes.getD i .unknown ∧
          (t.eye e).baseline =
            if (parseReport f).eyes.getD i .unknown = .fault ∧ (s.eye e).baseline = none then none
            else some ((parseReport f).counters.getD i 0)) ∧
        (∃ u, Keeps [.passage, .hold, .line, .ride, .directive, .report] s u ∧
          ((s.node p).estopOpen = true ∨ (parseReport f).estopOpen = false → Keeps [.passage, .line, .report] s u) ∧
          let input := takeInput p (parseReport f)
          let v := input 0 (input 1 (input 2 (input 3 u)))
          Keeps [.passage, .berth, .brake, .line, .ride, .directive, .report] v t ∧
            (v.ride.drill = none → t.ride = v.ride)) ∧
        ((s.node p).estopOpen = false → (parseReport f).estopOpen = true →
          (s.ride.state = .stopped ∨ s.ride.state = .running →
            t.ride.state = .tripped ∧ t.ride.permit = false ∧ t.ride.trip.first = some .estop ∧
              t.ride.trip.detailKind = .node ∧ t.ride.trip.detail = p ∧ t.ride.trip.time = s.clock ∧
              t.hold.entries = []) ∧
          (s.ride.state = .tripped → t.ride.state = .tripped ∧ .estop ∈ t.ride.trip.causes)))

/-- SLOT_MISS: a slot with no valid report closes without being heard, and the berths that the node weighs age. The first
miss makes an ACTIVE node MISSING, the second is counted, and the third makes it LOST: its eyes are UNKNOWN with their
baselines kept, the segments beside them FAULTED, the feedback of a run-out that it senses is NO-READING, and NODE-LOST is
raised with its position. Other nodes stand, but for MISSING ones that return where the trip ends a withheld round, the
model's choice, log entry 32. With no trip, a check round of a sustain drill goes on or ends with the slot as R140 and R159
give (bits of the result: log entry 51) (R90, R111, R123, R125 to R127, R139 to R141, R159). -/
def Obligations.MissedSlotsLoseTheNode : Prop :=
  ∀ (s : State) (p : Nat) (frames : List (List Byte)), s.resetAsserted = false → s.line.state = .up →
    s.line.slot = some p → s.slotMissed p frames = true → s.TablesLaw →
    ∃ t, exec (.slotMiss frames) s = .next t ∧ ClosesSlot s t p s.line.heard ∧ t.line.heard = s.line.heard ∧
      (∀ tag left, s.ride.state = .stopped → s.ride.drill = some ⟨tag, .check, left⟩ → t.ride.state = .stopped →
        ChecksOn s t p tag left) ∧
      (∀ q, q ≠ p → s.NodeStands t q) ∧
      (∀ i b, s.config.weighingNode i = some p → s.berthLive i = some b →
        t.berthLive i = some { b with age := min (b.age + 1) 255 }) ∧
      ((s.node p).state = .active →
        t.node p = { s.node p with state := .missing, misses := 1 } ∧ t.tracker = s.tracker) ∧
      ((s.node p).state = .missing → (s.node p).misses = 1 →
        t.node p = { s.node p with misses := 2 } ∧ t.tracker = s.tracker) ∧
      ((s.node p).state = .missing → (s.node p).misses ≠ 1 →
        t.node p = { s.node p with state := .lost, misses := 3 } ∧
        (∀ e d, s.config.edges[e]? = some d → d.eyeNode = p →
          t.eye e = { s.eye e with state := .unknown } ∧ t.faulted d.source = true ∧
            t.faulted d.destination = true) ∧
        (∀ e d, s.config.edges[e]? = some d → d.eyeNode ≠ p → t.eye e = s.eye e) ∧
        (∀ k x, s.runout k = some x → (t.runout k).map (·.feedback) =
          some (if s.config.finNode k = some p then .noReading else x.feedback)) ∧
        (∀ g, t.queue g = s.queue g) ∧
        (s.ride.state = .stopped ∨ s.ride.state = .running ∨ s.ride.drill = none →
          s.Raised t .nodeLost .node p)) ∧
      ((s.node p).state = .lost ∨ (s.node p).state = .absent → t.node p = s.node p ∧ t.tracker = s.tracker)

/-! ## Passages -/

/-- A count of one over an edge out of a segment that holds a boat: the boat that a passage over it moves, and the boats
behind. -/
structure CountsOne (s : State) (e : Nat) (d : EdgeCfg) (b : Nat) (rest : List Nat) : Prop where
  tables : s.TablesLaw
  roster : s.RosterLaw
  edge   : s.config.edges[e]? = some d
  head   : s.queue d.source = b :: rest

/-- One passage over edge `e`: the head boat `b` of the source is the tail boat of the destination, with its record as
R36 sets it; no other queue changes. A gated edge that `b` holds a reservation on consumes it, one that it holds no
reservation on raises UNBIDDEN and faults the destination, and a reservation on the other branch raises WRONG-WAY and
faults both branches; a free edge into a segment at capacity raises OVERFILL and faults it; a dwell below the source's
minimum raises EARLY and faults the source. An OPEN gate, or one that a granted performance of a consumed reservation is
opening (log entry 35), is closed behind the boat. Over a launch edge the launch count rises. On a tagged edge a tag
that is neither 0 nor the boat's number sets identity-doubt on the boat, and on the boat in service that it names; any
other tag, and an untagged edge, sets none and writes no IDENTITY record. The PASSAGE record of a passage that raises
nothing carries its outcome, and the IDENTITY record follows it. A performance that waits for the reservation of the
boat, consumed or cancelled, leaves the MOTION class with HOLD-END DROPPED RESERVATION-ENDED, the passage's first record
(log entry 13). A run-out that is an end of the edge, or that an end feeds, then holds the floor that the model gives it
(R29, R31 to R39, R76, R91, R92, R107). -/
def Obligations.PassagesMoveTheHeadBoat : Prop :=
  ∀ (s : State) (e tag : Nat) (d : EdgeCfg) (b : Nat) (rest : List Nat), CountsOne s e d b rest →
    let t := takePassage e tag s
    let gated := (s.config.segment d.source).gated
    let early := decide (s.clock - (s.boat b).arrival < (s.config.segment d.source).minDwell)
    let doubted := d.tag = true ∧ tag ≠ 0 ∧ tag ≠ b
    t.queue d.source = rest ∧ t.queue d.destination = s.queue d.destination ++ [b] ∧
    (∀ g, g ≠ d.source → g ≠ d.destination → t.queue g = s.queue g) ∧
    (t.boat b).status = .placed ∧ (t.boat b).segment = some d.destination ∧
    (t.boat b).position = (s.queue d.destination).length + 1 ∧ (t.boat b).arrival = s.clock ∧
    (t.boat b).lastEdge = some e ∧ (t.boat b).stay = (s.boat b).stay ∧
    (t.boat b).launchCount = (if d.launch then min ((s.boat b).launchCount + 1) 65535 else (s.boat b).launchCount) ∧
    (∀ x ∈ rest, (t.boat x).arrival = (s.boat x).arrival ∧ (t.boat x).position + 1 = (s.boat x).position) ∧
    (gated = true → s.tracker.reservations.filter (·.boat != b) <+: t.tracker.reservations) ∧
    (gated = false → s.tracker.reservations <+: t.tracker.reservations) ∧
    (d.launch = true →
      (∀ i w, (s.config.segment d.source).berth = some i → s.berthLive i = some w →
        (t.boat b).lastWeight = w.lastWeight ∧
        (t.boat b).weighStale = decide (32 < w.age ∨ w.lastWeight = 65535) ∧
        (t.boat b).weightClass = some
          (if 32 < w.age ∨ w.lastWeight = 65535 then .heavy else if w.lastWeight < s.config.t1 then .light
           else if w.lastWeight < s.config.t2 then .medium else .heavy)) ∧
      ∀ q, s.berth.pacer = some q →
        t.berth.pacer.map (fun x => (x.lastLaunch, x.interval)) = some (some s.clock, q.buffer)) ∧
    (d.launch = false → (t.boat b).weightClass = (s.boat b).weightClass) ∧
    (gated = true → (∀ r ∈ s.tracker.reservations, r.boat ≠ b) → t.faulted d.destination = true ∧
      (early = false → s.Raised t .unbidden .edge e)) ∧
    (∀ r, gated = true → s.reservationOf b = some r → r.edge ≠ e →
      t.faulted d.destination = true ∧
        (∀ x, s.config.edges[r.edge]? = some x → t.faulted x.destination = true) ∧
        (early = false → s.Raised t .wrongWay .edge e)) ∧
    (gated = false → s.atCapacity d.destination = true →
      t.faulted d.destination = true ∧ (early = false → s.Raised t .overfill .edge e)) ∧
    (early = true → t.faulted d.source = true ∧
      ((gated = false ∧ s.atCapacity d.destination = false) ∨
        (gated = true ∧ ∃ r, s.reservationOf b = some r ∧ r.edge = e) → s.Raised t .early .segment d.source)) ∧
    (gated = true → s.shadow ⟨.release, d.source⟩ = some 1 → s.closeWaiting d.source = false →
      ⟨⟨.release, d.source⟩, s.config.wordAddr ⟨.release, d.source⟩, 0, .autoClose, false⟩ ∈ t.passage.motion) ∧
    (∀ r m, gated = true → early = false → s.reservationOf b = some r → r.edge = e → s.passage.port = some m →
      m.word = ⟨.release, d.source⟩ → m.value = 1 → m.oldMap = false → s.closeWaiting d.source = false →
      ⟨⟨.release, d.source⟩, s.config.wordAddr ⟨.release, d.source⟩, 0, .autoClose, false⟩ ∈ t.passage.motion) ∧
    (∀ outcome, early = false → s.ringHasRoom →
      ((gated = false ∧ s.atCapacity d.destination = false ∧ outcome = .free) ∨
        (gated = true ∧ outcome = .reserved ∧ (∃ r, s.reservationOf b = some r ∧ r.edge = e) ∧
          ∀ m ∈ s.passage.motion, m.performsFor b = false)) →
      s.waitingReports ++ [.passage b e outcome false d.source d.destination] <+: t.waitingReports ∧
      (doubted → ((s.report.assigned + 1) % s.config.ringCount + 1) % s.config.ringCount ≠ s.report.consumer →
        s.waitingReports ++ [.passage b e outcome false d.source d.destination, .identity b e tag] <+:
          t.waitingReports)) ∧
    (∀ r, gated = true → s.reservationOf b = some r →
      (∀ h, s.PerformanceWaits b h →
        (s.ringHasRoom → s.waitingReports ++ [s.endedReport h] <+: t.waitingReports) ∧
        (r.edge = e → early = false → s.ringTakes 2 →
          s.waitingReports ++ [s.endedReport h, .passage b e .reserved false d.source d.destination] <+:
            t.waitingReports)) ∧
      ((r.edge = e ∧ early = false) ∨ (s.ride.state ≠ .stopped ∧ s.ride.state ≠ .running) →
        s.passage.motion.filter (fun m => !m.performsFor b) <+: t.passage.motion) ∧
      (r.edge ≠ e ∨ early = true → s.ride.state = .stopped ∨ s.ride.state = .running →
        ∀ m ∈ t.passage.motion, m.entry? = none)) ∧
    (∀ r, s.config.touchesRunout d.source r = true ∨ s.config.touchesRunout d.destination r = true → t.HoldsFloor r) ∧
    ((t.boat b).identityDoubt = true ↔ (s.boat b).identityDoubt = true ∨ doubted) ∧
    (∀ x, 1 ≤ x → x ≤ 32 → x ≠ b → ((t.boat x).identityDoubt = true ↔
      (s.boat x).identityDoubt = true ∨ (doubted ∧ tag = x ∧ (s.boat x).status ≠ .absent))) ∧
    (¬ doubted → ∀ r ∈ t.waitingReports.drop s.waitingReports.length, ∀ x f n, r ≠ .identity x f n) ∧
    (early = false → (gated = false ∧ s.atCapacity d.destination = false) ∨
        (gated = true ∧ ∃ r, s.reservationOf b = some r ∧ r.edge = e) →
      t.ride = s.ride ∧ ∀ g, t.faulted g = s.faulted g)

/-- What an eye's state and counter do: a counter that differs by 1 from the baseline, modulo 16, is one passage, which
out of an empty segment raises PHANTOM and faults both ends; a difference of 2 to 15 raises BURST-PASSAGE, faults both
ends and moves no boat; no difference, an unset baseline, and an eye that stays FAULT move nothing and raise nothing. An
eye that changes to FAULT faults both ends, and raises EYE-FAULT where a boat or a reservation stands at either end (R23
to R26, R30, R47). -/
def Obligations.EyesAreCountedAgainstTheirBaselines : Prop :=
  ∀ (s : State) (e counter tag : Nat) (d : EdgeCfg) (st : EyeState), s.TablesLaw → s.config.edges[e]? = some d →
    counter < 16 →
    (∀ k, st ≠ .fault → (s.eye e).baseline = some k → k < 16 →
      (counter = k → (takeEye e st counter tag s) = s.setEye e fun _ => ⟨st, some counter⟩) ∧
      ((counter + 16 - k) % 16 = 1 →
        takeEye e st counter tag s = takePassage e tag (s.setEye e fun _ => ⟨st, some counter⟩)) ∧
      ((counter + 16 - k) % 16 = 1 → s.queue d.source = [] →
        (takeEye e st counter tag s).faulted d.source = true ∧
        (takeEye e st counter tag s).faulted d.destination = true ∧
        (∀ g, (takeEye e st counter tag s).queue g = s.queue g) ∧
        s.Raised (takeEye e st counter tag s) .phantom .edge e) ∧
      (2 ≤ (counter + 16 - k) % 16 →
        (takeEye e st counter tag s).faulted d.source = true ∧
        (takeEye e st counter tag s).faulted d.destination = true ∧
        (∀ g, (takeEye e st counter tag s).queue g = s.queue g) ∧
        s.Raised (takeEye e st counter tag s) .burstPassage .edge e)) ∧
    (st ≠ .fault → (s.eye e).baseline = none →
      takeEye e st counter tag s = s.setEye e fun _ => ⟨st, some counter⟩) ∧
    ((s.eye e).state = .fault →
      takeEye e .fault counter tag s = s.setEye e fun x => ⟨.fault, x.baseline.map fun _ => counter⟩) ∧
    ((s.eye e).state ≠ .fault →
      (takeEye e .fault counter tag s).faulted d.source = true ∧
      (takeEye e .fault counter tag s).faulted d.destination = true ∧
      (∀ g, (takeEye e .fault counter tag s).queue g = s.queue g) ∧
      (s.occupied d.source = false → s.occupied d.destination = false →
        (takeEye e .fault counter tag s).ride = s.ride) ∧
      (s.occupied d.source = true ∨ s.occupied d.destination = true →
        s.Raised (takeEye e .fault counter tag s) .eyeFault .edge e))

/-! ## The line lost and found -/

/-- The line goes DOWN from UP with a cause: rounds stop, every segment is FAULTED, every eye UNKNOWN with its baseline
kept, every run-out's feedback none, LINE-DOWN raised, and the LINE report stands first; node states and miss counts
stay as they stood, also where the trip aborts a sustain drill (R129). -/
structure LosesLine (s t : State) (cause : LineCause) : Prop where
  line     : t.line = { s.line with state := .down, slot := none, tx := .released }
  segments : ∀ g < s.config.segments.length, t.faulted g = true
  queues   : ∀ g, t.queue g = s.queue g
  eyes     : ∀ e < s.config.edges.length, t.eye e = { s.eye e with state := .unknown }
  feedback : ∀ r < 4, (t.runout r).map (·.feedback) = (s.runout r).map fun _ => FinFeedback.none
  raised   : s.Raised t .lineDown .none 0
  report   : s.ringHasRoom → s.waitingReports ++ [.line .down cause 0] <+: t.waitingReports

/-- ROUND_SILENCE at 10 silent rounds and STUCK_LOW after 20 ms low take the line DOWN from UP, and otherwise have no
effect; LINE_LEVEL_CHANGE keeps the time from which the line has stood low in every line state, also under a drill. Node
states and miss counts stay as they stood (R120, R127 to R129). That a command whose event cannot come about changes
nothing, that STUCK_LOW may be taken later than its time, that the LINE record carries 0 for a position or count, and
that the level is kept while the line is not UP are the model's choices (log entries 2, 3, 48 and 37). -/
def Obligations.SilenceAndLowLineTakeTheLineDown : Prop :=
  ∀ s : State, s.resetAsserted = false → s.TablesLaw →
    (s.line.state = .up → 10 ≤ s.line.silence → ∃ t, exec .roundSilence s = .next t ∧ LosesLine s t .silence) ∧
    (∀ since, s.line.state = .up → s.line.lowSince = some since → since + 20 ≤ s.clock →
      ∃ t, exec .stuckLow s = .next t ∧ LosesLine s t .stuckLow) ∧
    (s.line.state ≠ .up ∨ s.line.silence < 10 → exec .roundSilence s = .next s) ∧
    (s.line.state ≠ .up ∨ (∀ since, s.line.lowSince = some since → s.clock < since + 20) →
      exec .stuckLow s = .next s) ∧
    (∃ t, exec (.lineLevelChange false) s = .next t ∧ Keeps [.passage, .line] s t ∧
      t.line = { s.line with lowSince := none }) ∧
    ∃ t, exec (.lineLevelChange true) s = .next t ∧ Keeps [.passage, .line] s t ∧
      t.line = { s.line with lowSince := some (s.line.lowSince.getD s.clock) }

/-- A directive whose argument count is not one that its rule takes is answered INVALID with BAD-ARGUMENTS, and nothing
else changes (R177). -/
def InvalidCount (k : DirectiveKind) (command : Request → Instr) (takes : Nat → Prop) : Prop :=
  ∀ (s : State) (tag : BitVec 16) (args : List Word), s.Takes k → args.length ≤ 15 → ¬ takes args.length →
    ∃ t, exec (command ⟨tag, args⟩) s = .next t ∧ Keeps [.passage, .directive] s t ∧
      s.Answers t tag k .invalid (some .badArguments) []

/-- RESTART_LINE with no arguments in TRIPPED or OFFLINE(LINE-FAILED) starts a discovery: the line is DISCOVERING and held
low, each node's entry is blank but for its expected kind, every eye is UNKNOWN with its baseline unset, every berth is
stale, and with boats in service every segment is FAULTED; from OFFLINE(LINE-FAILED) the ride is OFFLINE(DISCOVERING), and
no result is written yet. In any other state it is refused WRONG-STATE, and with arguments it is INVALID. BREAK_END 1 ms
later sends the query for position 1. ENUMERATION_ANSWER within 5 ms of the query for a position below 16 records kind and
serial and sends the next query (R130 to R132, R134). That BREAK_END may be taken later than its time (log entry 3), and
that RESTART_LINE keeps the time from which the line has stood low (log entry 37), are the model's choices. -/
def Obligations.DiscoverySendsTheBreakThenQueries : Prop :=
  InvalidCount .restartLine .restartLine (· = 0) ∧
  (∀ (s : State) (tag : BitVec 16), s.Takes .restartLine → s.TablesLaw →
    (s.ride.state = .tripped ∨ s.ride.state = .offline .lineFailed →
      ∃ t, exec (.restartLine ⟨tag, []⟩) s = .next t ∧ t.line.state = .discovering ∧ t.line.slot = none ∧
        t.line.silence = 0 ∧ t.line.lowSince = s.line.lowSince ∧ t.line.discovery = .breaking s.clock ∧
        t.line.tx = .lowForBreak ∧
        (∀ p, t.node p = { NodeEntry.blank with expected := (s.node p).expected }) ∧
        (∀ e < s.config.edges.length, t.eye e = ⟨.unknown, none⟩) ∧
        (∀ b ∈ t.berth.berths, b.lastWeight = 65535 ∧ b.age = 255) ∧
        (∀ g, t.queue g = s.queue g) ∧
        (s.inService = true → ∀ g < s.config.segments.length, t.faulted g = true) ∧
        (s.inService = false → ∀ g, t.faulted g = s.faulted g) ∧
        (s.ride.state = .tripped → t.ride = s.ride) ∧
        (s.ride.state = .offline .lineFailed →
          t.ride = { s.ride with state := .offline .discovering, permit := false }) ∧
        t.directive = { s.directive with long := some (.restartLine tag) }) ∧
    (s.ride.state ≠ .tripped → s.ride.state ≠ .offline .lineFailed →
      ∃ t, exec (.restartLine ⟨tag, []⟩) s = .next t ∧ Keeps [.passage, .directive] s t ∧
        s.Answers t tag .restartLine .refused (some .wrongState) [])) ∧
  (∀ (s : State) (since : Nat), s.resetAsserted = false → s.line.discovery = .breaking since → since + 1 ≤ s.clock →
    ∃ t, exec .breakEnd s = .next t ∧ Keeps [.passage, .line] s t ∧
      t.line = { s.line with discovery := .query 1 s.clock, tx := .frame (withCrc8 [0x69, 1]) }) ∧
  ∀ (s : State) (p sentAt : Nat) (f : List Byte), s.resetAsserted = false → s.TablesLaw → 1 ≤ p → p < 16 →
    s.line.discovery = .query p sentAt → s.clock ≤ sentAt + 5 → validAnswer f = true →
    ∃ t, exec (.enumerationAnswer f) s = .next t ∧ Keeps [.passage, .line] s t ∧
      t.node p = { s.node p with
        discovered := NodeKind.ofCode (f.getD 1 0).toNat
        serial := f.getD 5 0 ++ f.getD 4 0 ++ f.getD 3 0 ++ f.getD 2 0 } ∧
      (∀ q, q ≠ p → t.node q = s.node q) ∧ t.line.discovery = .query (p + 1) s.clock ∧
      t.line.tx = .frame (withCrc8 [0x69, BitVec.ofNat 8 (p + 1)]) ∧ t.line.state = s.line.state

/-- Enumeration has ended with a count, judged by the node table of `u`. On a match the line is UP, the configured nodes
are ACTIVE, round 0 is sent with its first slot open, and from OFFLINE(DISCOVERING) the ride is STOPPED, or TRIPPED by
CONTROLLER-RESET while CTRL-RESET-SENSE is asserted; an image that is pending as the ride would leave
OFFLINE(DISCOVERING) is taken instead (R187). The watch for a low line begins at UP (the model's choice, log entry 37).
On a mismatch the line is FAILED and OFFLINE(DISCOVERING) becomes OFFLINE(LINE-FAILED). In TRIPPED the ride is as it
was. A RESTART-LINE is answered DONE with LINE-UP or LINE-FAILED (R132 to R134, R146). -/
structure EndsDiscovery (u t : State) (count : Nat) : Prop where
  taken   : ∀ i, count = u.config.nodes.length →
    (∀ p, 1 ≤ p → p ≤ u.config.nodes.length → (u.node p).expected = (u.node p).discovered) →
    u.loader.pendingImage = some i → u.ride.state = .offline .discovering → u.TakesImage t i
  matched : count = u.config.nodes.length →
    (∀ p, 1 ≤ p → p ≤ u.config.nodes.length → (u.node p).expected = (u.node p).discovered) →
    (u.loader.pendingImage = none ∨ u.ride.state ≠ .offline .discovering) →
    t.line.state = .up ∧ t.line.discovery = .idle ∧ t.line.round = 0 ∧ t.line.slot = some 1 ∧ t.line.heard = false ∧
      t.line.nextRound = u.clock + 2 ∧ t.line.lowSince = u.line.lowSince.map (fun _ => u.clock) ∧
      (∃ f, t.line.tx = .frame (withCrc8 [0x5A, 0, f]) ∧ (f.getLsbD 0 = true ↔ t.ride.state = .tripped)) ∧
      (∀ p, 1 ≤ p → p ≤ 16 → p ≤ u.config.nodes.length →
        t.node p = { u.node p with state := .active, misses := 0 }) ∧
      (u.ride.state = .tripped → t.ride = u.ride) ∧
      (u.ride.state = .offline .discovering → u.ride.senseLevel = false →
        t.ride = { u.ride with state := .stopped, permit := true }) ∧
      (u.ride.state = .offline .discovering → u.ride.senseLevel = true →
        t.ride.state = .tripped ∧ t.ride.permit = false ∧
        t.ride.trip = { first := some .controllerReset, detailKind := .none, detail := 0, time := u.clock,
                        causes := [.controllerReset], additional := 0 }) ∧
      ∀ tag, u.ride.drill = none → u.directive.long = some (.restartLine tag) →
        t.directive.long = none ∧ u.Answers t tag .restartLine .done none [5]
  failed : (count ≠ u.config.nodes.length ∨
      ∃ p, 1 ≤ p ∧ p ≤ u.config.nodes.length ∧ p ≤ count ∧ (u.node p).expected ≠ (u.node p).discovered) →
    t.line.state = .failed ∧ t.line.discovery = .idle ∧ t.line.tx = .released ∧ (∀ p, t.node p = u.node p) ∧
      t.tracker = u.tracker ∧
      (u.ride.state = .tripped → t.ride = u.ride) ∧
      (u.ride.state = .offline .discovering →
        t.ride = { u.ride with state := .offline .lineFailed, permit := false }) ∧
      (∀ tag, u.directive.long = some (.restartLine tag) →
        t.directive.long = none ∧ u.Answers t tag .restartLine .done none [6]) ∧
      (u.ride.state = .tripped → u.ringHasRoom →
        (∀ p, 1 ≤ p → p ≤ u.config.nodes.length → p ≤ count → (u.node p).expected ≠ (u.node p).discovered →
          (∀ q, 1 ≤ q → q < p → (u.node q).expected = (u.node q).discovered) →
          u.waitingReports ++ [.line .failed .kindMismatch p] <+: t.waitingReports) ∧
        ((∀ q, 1 ≤ q → q ≤ u.config.nodes.length → q ≤ count → (u.node q).expected = (u.node q).discovered) →
          u.waitingReports ++ [.line .failed .countMismatch count] <+: t.waitingReports))

/-- ENUMERATION_TIMEOUT 5 ms after the query for position `p` ends the enumeration with `p` − 1 nodes, and
ENUMERATION_ANSWER to the query for position 16 ends it with 16, its kind and serial recorded, whether an image is
pending or not (R132, R133, R146, R187). That the TRIP flag of round 0 is read after the change of ride state, that the
watch for a low line begins at UP, and that the timeout may be taken later than its time are the model's choices (log
entries 16, 37 and 3). -/
def Obligations.DiscoveryEndsUpOrFailed : Prop :=
  ∀ (s : State) (p sentAt : Nat), s.resetAsserted = false → s.TablesLaw →
    s.line.discovery = .query p sentAt →
    (1 ≤ p → sentAt + 5 ≤ s.clock → ∃ t, exec .enumerationTimeout s = .next t ∧ EndsDiscovery s t (p - 1)) ∧
    ∀ f, p = 16 → s.clock ≤ sentAt + 5 → validAnswer f = true →
      ∃ t, exec (.enumerationAnswer f) s = .next t ∧
        EndsDiscovery (s.setNode 16 fun n => { n with
          discovered := NodeKind.ofCode (f.getD 1 0).toNat
          serial := f.getD 5 0 ++ f.getD 4 0 ++ f.getD 3 0 ++ f.getD 2 0 }) t 16

/-! ## Times that arrive -/

/-- The successor of a segment gains room: the dwell clocks of the boats in the segment that run are set running from
the ride clock, the others stay as they are (log entry 21), and nothing else of the ride model changes; and after every
command by which the successor has gone from at capacity to having room, a dwell clock that runs in the segment runs
from the ride clock (R44, R45). -/
def RoomRestartsDwellClocks : Prop :=
  (∀ s0 s : State, let t := dwellWork s0 s
    Keeps [.tracker] s t ∧ t.tracker = { s.tracker with roster := t.tracker.roster } ∧
      ∀ b, let opened := ∃ g < s.config.segments.length, s0.gainsRoom s g ∧ b ∈ s.queue g
        (∀ start, opened → (s.boat b).dwell = .running start → t.boat b = { s.boat b with dwell := .running s.clock }) ∧
        (¬ opened ∨ (∀ start, (s.boat b).dwell ≠ .running start) → t.boat b = s.boat b)) ∧
  ∀ (c : Instr) (s t : State) (g b start : Nat), exec c s = .next t → g < t.config.segments.length → s.gainsRoom t g →
    b ∈ t.queue g → (t.boat b).dwell = .running start → start = s.clock

/-- RESERVATION_LAPSE at a reservation's deadline, in every ride state: it leaves the list with a LAPSE record first, no
queue and no condition changes and nothing is raised, and a gate that is OPEN, or that a granted performance is opening
(log entry 35), is closed; a performance that waits for the reservation leaves the MOTION class with HOLD-END DROPPED
RESERVATION-ENDED behind the LAPSE record, the run-out that it led into holds the floor that the model gives it, and
where a segment's successor gains room by it, the dwell clocks that run in the segment run from the ride clock. The
dwell clocks restart in the same way after every command. DWELL_EXPIRY, in RUNNING with room ahead and the clock at the
maximum dwell: the boat's clock ends, its segment is FAULTED, OVERDUE is raised, and no boat moves. HOLD_EXPIRY at an
entry's expiry time: it leaves the list with no write and a HOLD-END EXPIRED record, and the hold queue image is asked
for (R41 to R46, R69, R76, R77, R107). That each may also be taken after its time, and that the LAPSE record stands
first, is the model's choice (log entries 3 and 13). -/
def Obligations.DeadlinesEndReservationsDwellsAndEntries : Prop :=
  RoomRestartsDwellClocks ∧
  (∀ (s : State) (b : Nat) (r : Reservation), s.resetAsserted = false → s.reservationOf b = some r →
    r.deadline ≤ s.clock →
    ∃ t, exec (.reservationLapse b) s = .next t ∧ t.ride = s.ride ∧ (∀ g, t.segment g = s.segment g) ∧
      s.tracker.reservations.filter (·.boat != b) <+: t.tracker.reservations ∧
      (∀ x, (t.boat x).status = (s.boat x).status ∧ (t.boat x).segment = (s.boat x).segment ∧
        (t.boat x).arrival = (s.boat x).arrival) ∧
      (s.ringHasRoom → s.waitingReports ++ [.lapse b r.edge r.deadline] <+: t.waitingReports) ∧
      (∀ h, s.PerformanceWaits b h → s.ringTakes 2 →
        s.waitingReports ++ [.lapse b r.edge r.deadline, s.endedReport h] <+: t.waitingReports) ∧
      s.passage.motion.filter (fun m => !m.performsFor b) <+: t.passage.motion ∧
      (∀ k < 4, ∀ g, s.config.runoutSegment k = some g → s.config.edgeInto r.edge g = true → t.HoldsFloor k) ∧
      (∀ g < s.config.segments.length, s.gainsRoom t g → ∀ c ∈ s.queue g, ∀ start, (s.boat c).dwell = .running start →
        (t.boat c).dwell = .running s.clock) ∧
      (∀ d, s.config.edges[r.edge]? = some d → (s.config.segment d.source).gated = true →
        (s.shadow ⟨.release, d.source⟩ = some 1 ∨ ∃ m, s.passage.port = some m ∧ m.word = ⟨.release, d.source⟩ ∧
          m.value = 1 ∧ m.oldMap = false) → s.closeWaiting d.source = false →
        ⟨⟨.release, d.source⟩, s.config.wordAddr ⟨.release, d.source⟩, 0, .lapseClose, false⟩ ∈ t.passage.motion)) ∧
  (∀ (s : State) (b g start limit : Nat), s.resetAsserted = false → s.TablesLaw → g < s.config.segments.length →
    s.ride.state = .running → (s.boat b).segment = some g → (s.boat b).dwell = .running start →
    (s.config.segment g).maxDwell = some limit → start + limit ≤ s.clock → s.successorFull g = false →
    ∃ t, exec (.dwellExpiry b) s = .next t ∧ (t.boat b).dwell = .expired ∧ t.faulted g = true ∧
      (∀ h, t.queue h = s.queue h) ∧ s.tracker.reservations <+: t.tracker.reservations ∧
      s.Raised t .overdue .segment g) ∧
  ∀ (s : State) (w : WordRef) (h : HeldEntry), s.resetAsserted = false → s.heldEntry w = some h → h.expiry ≤ s.clock →
    ∃ t, exec (.holdExpiry w) s = .next t ∧ Keeps [.passage, .hold, .report] s t ∧
      t.hold.entries = s.hold.entries.filter (·.word != w) ∧ t.passage.motion = s.passage.motion ∧
      t.passage.upkeep.any (·.asksFor .holdQueue) = true ∧
      (s.ringHasRoom → s.waitingReports ++
        [.holdEnd h .expired (some h.reason) (if w.bank = .release then s.head w.index else 0)] <+: t.waitingReports)

/-! ## Boats -/

/-- ADD_BOAT of an ABSENT boat in STOPPED into a SOUND segment with room: the boat is PLACED at the tail of its queue
with its ABSENT values, its STAY copy and the ride clock as its arrival time. WITHDRAW_BOAT of a boat in service in
STOPPED or TRIPPED: it leaves its queue, the boats behind move up, its reservation is cancelled, and its record is at
its ABSENT values with its STAY copy. Conditions do not change; each is DONE. A wrong argument count is INVALID. The
checks come in order, each with its reason, and a refusal changes no unit but the Directive Unit and the image requests
(R14, R17, R18, R191). With no configuration a segment identifier from 24 on is INVALID and one below 24 is judged by
the ride state (the model's choice, log entry 22). -/
def Obligations.BoatsAreAddedAndWithdrawn : Prop :=
  InvalidCount .addBoat .addBoat (· = 2) ∧ InvalidCount .withdrawBoat .withdrawBoat (· = 1) ∧
  (∀ (s : State) (tag : BitVec 16) (x y : Word), s.Takes .addBoat → s.TablesLaw → s.RosterLaw →
    let b := x.toNat
    let g := y.toNat
    let refused (r : Reason) := ∃ t, exec (.addBoat ⟨tag, [x, y]⟩) s = .next t ∧ Keeps [.passage, .directive] s t ∧
      s.Answers t tag .addBoat .refused (some r) []
    (b = 0 ∨ 32 < b ∨ 24 ≤ g ∨ (s.configured = true ∧ s.config.segments.length ≤ g) →
      ∃ t, exec (.addBoat ⟨tag, [x, y]⟩) s = .next t ∧ Keeps [.passage, .directive] s t ∧
        s.Answers t tag .addBoat .invalid (some .badArguments) []) ∧
    (1 ≤ b → b ≤ 32 → s.configured = false → g < 24 → refused .wrongState) ∧
    (1 ≤ b → b ≤ 32 → g < s.config.segments.length →
      (s.ride.state ≠ .stopped → refused .wrongState) ∧
      (s.ride.state = .stopped → (s.boat b).status ≠ .absent → refused .boatInService) ∧
      (s.ride.state = .stopped → (s.boat b).status = .absent → s.faulted g = true → refused .segmentFaulted) ∧
      (s.ride.state = .stopped → (s.boat b).status = .absent → s.faulted g = false →
        (s.config.segment g).capacity ≤ s.load g → refused .noRoom) ∧
      (s.ride.state = .stopped → (s.boat b).status = .absent → s.faulted g = false →
        s.load g < (s.config.segment g).capacity →
        ∃ t, exec (.addBoat ⟨tag, [x, y]⟩) s = .next t ∧ t.queue g = s.queue g ++ [b] ∧
          (∀ h, h ≠ g → t.queue h = s.queue h) ∧ (∀ h, t.faulted h = s.faulted h) ∧ t.ride = s.ride ∧
          (∃ dwell nextStep, t.boat b = { BoatRecord.vacant with
            status := .placed, segment := some g, position := (s.queue g).length + 1, arrival := s.clock
            stay := (s.boat b).stay, dwell := dwell, nextStep := nextStep } ∧
            (dwell = .none ↔ (s.config.segment g).maxDwell = none)) ∧
          (∀ z, z ≠ b → (t.boat z).status = (s.boat z).status ∧ (t.boat z).segment = (s.boat z).segment ∧
            (t.boat z).position = (s.boat z).position ∧ (t.boat z).arrival = (s.boat z).arrival) ∧
          s.Answers t tag .addBoat .done none []))) ∧
  ∀ (s : State) (tag : BitVec 16) (x : Word), s.Takes .withdrawBoat → s.TablesLaw → s.RosterLaw →
    let b := x.toNat
    let refused (r : Reason) := ∃ t, exec (.withdrawBoat ⟨tag, [x]⟩) s = .next t ∧
      Keeps [.passage, .directive] s t ∧ s.Answers t tag .withdrawBoat .refused (some r) []
    (b = 0 ∨ 32 < b →
      ∃ t, exec (.withdrawBoat ⟨tag, [x]⟩) s = .next t ∧ Keeps [.passage, .directive] s t ∧
        s.Answers t tag .withdrawBoat .invalid (some .badArguments) []) ∧
    (1 ≤ b → b ≤ 32 →
      (s.ride.state ≠ .stopped → s.ride.state ≠ .tripped → refused .wrongState) ∧
      (s.ride.state = .stopped ∨ s.ride.state = .tripped → (s.boat b).status = .absent → refused .boatAbsent) ∧
      (s.ride.state = .stopped ∨ s.ride.state = .tripped → (s.boat b).status ≠ .absent →
        ∃ t, exec (.withdrawBoat ⟨tag, [x]⟩) s = .next t ∧
          (∀ g, t.queue g = (s.queue g).filter (· != b)) ∧ (∀ g, t.faulted g = s.faulted g) ∧ t.ride = s.ride ∧
          t.boat b = { BoatRecord.vacant with stay := (s.boat b).stay } ∧
          s.tracker.reservations.filter (·.boat != b) <+: t.tracker.reservations ∧
          (∀ z, z ≠ b → (t.boat z).status = (s.boat z).status ∧ (t.boat z).segment = (s.boat z).segment ∧
            (t.boat z).arrival = (s.boat z).arrival) ∧
          s.Answers t tag .withdrawBoat .done none []))

/-- RESEAT with a valid list, in STOPPED or TRIPPED: the segment holds exactly the list, head first, is SOUND, and every
other segment loses the listed boats and keeps its condition; each listed boat is PLACED at its list position with the
ride clock as its arrival time and no identity-doubt; each boat that stood there and is not listed is MISSING; and the
reservations of listed boats and those into or out of the segment are cancelled; in a run-out each listed boat's profile
starts again from its first step, also where arrival times stand as they stood (log entry 38), and a run-out that the
segment is or feeds holds the floor that the model then gives it. Otherwise it is refused, in the order WRONG-STATE,
OVER-CAPACITY, BOAT-ABSENT with the first such boat, or INVALID for its arguments, fewer than two among them (R19, R107,
R191). With no configuration a segment identifier from 24 on is INVALID and one below 24 is refused WRONG-STATE (the
model's choice, log entry 22). -/
def Obligations.ReseatSetsTheSegment : Prop :=
  InvalidCount .reseat .reseat (2 ≤ ·) ∧
  ∀ (s : State) (tag : BitVec 16) (x y : Word) (list : List Word), s.Takes .reseat → s.TablesLaw → s.RosterLaw →
    list.length ≤ 13 →
    let g := x.toNat
    let boats := list.map (·.toNat)
    let refused (r : Reason) (d : List Nat) := ∃ t, exec (.reseat ⟨tag, x :: y :: list⟩) s = .next t ∧
      Keeps [.passage, .directive] s t ∧ s.Answers t tag .reseat .refused (some r) d
    ((24 ≤ g ∨ (s.configured = true ∧ s.config.segments.length ≤ g) ∨ 8 < y.toNat ∨ boats.length ≠ y.toNat ∨
        (∃ b ∈ boats, b = 0 ∨ 32 < b) ∨ ¬ boats.Nodup) →
      ∃ t, exec (.reseat ⟨tag, x :: y :: list⟩) s = .next t ∧ Keeps [.passage, .directive] s t ∧
        s.Answers t tag .reseat .invalid (some .badArguments) []) ∧
    (g < 24 → s.configured = false → y.toNat ≤ 8 → boats.length = y.toNat → (∀ b ∈ boats, 1 ≤ b ∧ b ≤ 32) →
      boats.Nodup → refused .wrongState []) ∧
    (g < s.config.segments.length → y.toNat ≤ 8 → boats.length = y.toNat → (∀ b ∈ boats, 1 ≤ b ∧ b ≤ 32) →
      boats.Nodup →
      (s.ride.state ≠ .stopped → s.ride.state ≠ .tripped → refused .wrongState []) ∧
      (s.ride.state = .stopped ∨ s.ride.state = .tripped →
        ((s.config.segment g).capacity < boats.length → refused .overCapacity []) ∧
        (∀ b before after, boats.length ≤ (s.config.segment g).capacity → boats = before ++ b :: after →
          (∀ z ∈ before, (s.boat z).status ≠ .absent) → (s.boat b).status = .absent → refused .boatAbsent [b]) ∧
        (boats.length ≤ (s.config.segment g).capacity → (∀ b ∈ boats, (s.boat b).status ≠ .absent) →
          ∃ t, exec (.reseat ⟨tag, x :: y :: list⟩) s = .next t ∧ t.queue g = boats ∧ t.faulted g = false ∧
            (∀ h, h ≠ g → t.queue h = (s.queue h).filter (fun b => !boats.contains b) ∧
              t.faulted h = s.faulted h) ∧
            (∀ i b, boats[i]? = some b → (t.boat b).status = .placed ∧ (t.boat b).segment = some g ∧
              (t.boat b).position = i + 1 ∧ (t.boat b).arrival = s.clock ∧ (t.boat b).identityDoubt = false) ∧
            (∀ r, s.config.runoutSegment r = some g → ∀ b ∈ boats,
              (t.boat b).nextStep = t.firstStepAfter b s.clock) ∧
            (∀ r, s.config.touchesRunout g r = true → t.HoldsFloor r) ∧
            (∀ b ∈ s.queue g, b ∉ boats → (t.boat b).status = .missing ∧ (t.boat b).segment = none ∧
              (t.boat b).position = 0) ∧
            (s.tracker.reservations.filter (fun r => !(boats.contains r.boat || s.config.edgeFrom r.edge g ||
              s.config.edgeInto r.edge g)) <+: t.tracker.reservations) ∧
            t.ride = s.ride ∧ s.Answers t tag .reseat .done none [])))

/-! ## The pacer and the brakes -/

/-- An entry `h` that an examination judges PASS or AMEND is performed (R72, R74): it leaves the list, with the hold
queue image asked for, and the write of the value joins the MOTION class behind every write decided before. A
reservation that the verdict creates joins the list; the floor lift that it may call for stands before the performance
(log entry 14). -/
structure Performs (s t : State) (h : HeldEntry) (v : Nat) (amended : Bool) (r : Option Reservation) : Prop where
  keeps    : Keeps modelParts s t
  entries  : t.hold.entries = s.hold.entries.filter (·.word != h.word)
  shown    : (∃ x ∈ s.hold.entries, x.word = h.word) → t.passage.upkeep.any (·.asksFor .holdQueue) = true
  segments : t.tracker.segments = s.tracker.segments
  port     : t.passage.port = s.passage.port
  reserves : t.tracker.reservations = s.tracker.reservations ++ r.toList
  decides  : ∃ front, s.passage.motion <+: front ∧ t.passage.motion = front ++
    [⟨h.word, s.config.wordAddr h.word, v, .performance { h with value := v, amended := amended } (r.map (·.boat)), false⟩]
  plain    : r = none → Keeps [.passage, .hold] s t ∧ t.waitingReports = s.waitingReports ∧
    t.passage.motion.length = s.passage.motion.length + 1
  records  : s.waitingReports <+: t.waitingReports

/-- A change from `s0` to `u` that the Hold Queue examines its list for (R71). -/
def CallsForExamination (s0 u : State) : Prop :=
  (∃ g < u.config.segments.length, s0.load g ≠ u.load g ∨ s0.faulted g ≠ u.faulted g ∨ s0.head g ≠ u.head g) ∨
  s0.verdict.shadows ≠ u.verdict.shadows ∨
  (∃ p q, s0.berth.pacer = some p ∧ u.berth.pacer = some q ∧
    ((p.stage1 = false ∧ q.stage1 = true) ∨ (p.stage2 = false ∧ q.stage2 = true))) ∨
  ∃ c < 4, s0.stalled c ≠ u.stalled c

/-- An examination takes each entry of the list once, from the oldest to the newest, each judged in the state that the
one before it left. PASS and AMEND perform the entry. HOLD leaves it at its place with its times and replaces its
reason, with no record. REFUSE ends it: it leaves the list with no write, and its HOLD-END DROPPED record carries the
reason. A change that is handed on is followed by one examination where it changed a load, a condition, a head boat, a
shadow or a stall condition or a pacer stage became met, and by none otherwise (R71 to R75, R80). -/
def ExaminationsTakeEachEntryOnce : Prop :=
  (∀ s : State, examine s = s.hold.entries.foldl (fun u h => examineEntry h u) s) ∧
  (∀ (s : State) (h : HeldEntry), let t := examineEntry h s
    (∀ r, s.judge h.word h.value = .pass r → Performs s t h h.value h.amended r) ∧
    (∀ v reason, s.judge h.word h.value = .amend v reason → Performs s t h v true none) ∧
    (∀ v amended reason, s.judge h.word h.value = .hold v amended reason →
      Keeps [.passage, .hold] s t ∧ t.passage.motion = s.passage.motion ∧ t.waitingReports = s.waitingReports ∧
        t.hold.entries = s.hold.entries.map (fun x => if x.word = h.word then { x with reason := reason } else x) ∧
        (t.hold ≠ s.hold → t.passage.upkeep.any (·.asksFor .holdQueue) = true)) ∧
    (∀ reason, s.judge h.word h.value = .refuse reason →
      Keeps [.passage, .hold, .report] s t ∧ t.passage.motion = s.passage.motion ∧
        t.hold.entries = s.hold.entries.filter (·.word != h.word) ∧
        (t.hold ≠ s.hold → t.passage.upkeep.any (·.asksFor .holdQueue) = true) ∧
        (s.ringHasRoom → t.waitingReports =
          s.waitingReports ++
            [.holdEnd h .dropped (some reason) (if h.word.bank = .release then s.head h.word.index else 0)]))) ∧
  ∀ s0 s : State, let u := unitWork s0 (dwellWork s0 s)
    (CallsForExamination s0 u → handOn s0 s = examine u) ∧ (¬ CallsForExamination s0 u → handOn s0 s = u)

/-- SET_PACE with one argument from 1000 to 60000, outside OFFLINE(NO-CONFIG): in STOPPED the buffer and the active
interval take it and the result is DONE APPLIED, in every other state the buffer alone and DONE BUFFERED. Another
argument, or another count of them, is INVALID, and in OFFLINE(NO-CONFIG) it is refused WRONG-STATE. Stage 1 is met
while no reservation on a launch edge is outstanding and the interval clock has reached the active interval.
PACER_INTERVAL_ELAPSED, with the clock there and its reaching not yet taken: the second of the two events, with no such
reservation, meets stage 1, and the entries are examined: with none held nothing else changes, and a single held entry
that its verdict passes is performed; with such a reservation, or stage 1 met already, the reaching alone is kept. An
examination, this one and those of a hand-on, judges each entry once, oldest first, and performs it, keeps it at its
place with the new reason, or drops it. Stage 2 is met while the run load, the sum over the run set of the boats in each
segment and the reservations into it, is below RUN-MAX; the pacer permits a launch with both stages met; and where the
pacer holds the run load and stage 2 as the model gives them, it does so after every command (R94 to R98). At the very
millisecond the clock counts as at the interval once the command is taken (log entry 27); the command may be taken later
than its time (log entry 3); and the performance of a release stands last in the MOTION class, behind a floor lift that
its reservation calls for in the same examination (log entry 14): these are the model's choices. -/
def Obligations.PaceIsSetAndStageOneIsMet : Prop :=
  InvalidCount .setPace .setPace (· = 1) ∧ ExaminationsTakeEachEntryOnce ∧
  (∀ (s : State) (g : Nat), s.load g = (s.queue g).length +
    (s.tracker.reservations.filter fun r => (s.config.edges[r.edge]?).any (·.destination == g)).length) ∧
  (∀ s : State, s.runLoad = (s.config.runSet.map s.load).sum ∧ (s.stage2Met = true ↔ s.runLoad < s.config.runMax) ∧
    (s.pacerPermits = true ↔ ∃ p, s.berth.pacer = some p ∧ s.stage1Met p = true ∧ s.stage2Met = true)) ∧
  (∀ (c : Instr) (s t : State), exec c s = .next t → s.HoldsRunLoad → t.HoldsRunLoad) ∧
  (∀ (s : State) (tag : BitVec 16) (x : Word), s.Takes .setPace →
    (x.toNat < 1000 ∨ 60000 < x.toNat →
      ∃ t, exec (.setPace ⟨tag, [x]⟩) s = .next t ∧ Keeps [.passage, .directive] s t ∧
        s.Answers t tag .setPace .invalid (some .badArguments) []) ∧
    (1000 ≤ x.toNat → x.toNat ≤ 60000 →
      (s.ride.state = .offline .noConfig → ∃ t, exec (.setPace ⟨tag, [x]⟩) s = .next t ∧
        Keeps [.passage, .directive] s t ∧ s.Answers t tag .setPace .refused (some .wrongState) []) ∧
      ∀ p, s.berth.pacer = some p →
        (s.ride.state = .stopped → ∃ t, exec (.setPace ⟨tag, [x]⟩) s = .next t ∧
          t.berth.pacer.map (fun q => (q.interval, q.buffer, q.lastLaunch)) =
            some (x.toNat, x.toNat, p.lastLaunch) ∧
          (∀ g, t.segment g = s.segment g) ∧ t.ride = s.ride ∧ s.Answers t tag .setPace .done none [1]) ∧
        (s.ride.state ≠ .stopped → s.ride.state ≠ .offline .noConfig →
          ∃ t, exec (.setPace ⟨tag, [x]⟩) s = .next t ∧ Keeps [.passage, .berth, .directive] s t ∧
            t.berth = { s.berth with pacer := some { p with buffer := x.toNat } } ∧
            s.Answers t tag .setPace .done none [2]))) ∧
  (∀ (s : State) (p : Pacer), s.stage1Met p = true ↔
    (∀ r ∈ s.tracker.reservations, s.config.edgeLaunch r.edge = false) ∧
      (p.reached = true ∨ p.interval < s.intervalClock p)) ∧
  ∀ (s : State) (p : Pacer), s.resetAsserted = false → s.berth.pacer = some p → p.reached = false →
    p.interval ≤ 65535 → (∀ l, p.lastLaunch = some l → p.interval ≤ s.clock - l) →
    let met : BerthUnit := { s.berth with pacer := some { p with reached := true, stage1 := true } }
    (p.stage1 = true ∨ (∃ r ∈ s.tracker.reservations, s.config.edgeLaunch r.edge = true) →
      ∃ t, exec .pacerIntervalElapsed s = .next t ∧ Keeps [.passage, .berth] s t ∧
        t.berth = { s.berth with pacer := some { p with reached := true } }) ∧
    (p.stage1 = false → (∀ r ∈ s.tracker.reservations, s.config.edgeLaunch r.edge = false) →
      exec .pacerIntervalElapsed s = .next (finish s (examine (askChanged s { s with berth := met }))) ∧
      (s.hold.entries = [] →
        ∃ t, exec .pacerIntervalElapsed s = .next t ∧ Keeps [.passage, .berth] s t ∧ t.berth = met) ∧
      ∀ h r, s.hold.entries = [h] → { s with berth := met }.judge h.word h.value = .pass r →
        ∃ t, exec .pacerIntervalElapsed s = .next t ∧ t.hold.entries = [] ∧
          (∀ g, t.segment g = s.segment g) ∧ t.verdict = s.verdict ∧ t.memory = s.memory ∧
          (∀ x, r = some x → t.tracker.reservations = s.tracker.reservations ++ [x]) ∧
          ∃ front, s.passage.motion <+: front ∧ t.passage.motion = front ++
            [⟨h.word, s.config.wordAddr h.word, h.value, .performance h (r.map (·.boat)), false⟩])

/-- A recomputation of a run-out's floor gives the record the floor that the ride model gives, and each boat in the
run-out the time of its first step not yet reached; where that floor is another than the record's and stands above the
known fin shadow and above the waiting lift, it decides a floor lift: the floor to the fin word behind every write
decided before, the waiting lift, and the FLOOR-LIFT record; otherwise it decides and records nothing. After every
command that has touched what a floor is computed from, by a passage, a lapse, a reservation, a boat directive or a
take, the record holds the floor that the model gives it, and a lift to that floor or higher that has not completed
stands wherever it stands above the known shadow. Between two recomputations only time passes: at every step the floors
and the next step times are those of one moment at or before the ride clock (R106 to R108). -/
def FloorsFollowTheModel : Prop :=
  (∀ (s : State) (r g : Nat) (x : RunoutLive), s.config.runoutSegment r = some g → s.runout r = some x →
    let t := recomputeFloor r s
    let f := s.floorOf r
    let lifts := f ≠ x.floor ∧ (∃ v, s.shadow ⟨.fin, r⟩ = some v ∧ v < f) ∧ ∀ w, x.waitingLift = some w → w < f
    Keeps [.passage, .tracker, .brake, .report] s t ∧
      t.tracker = { s.tracker with roster := t.tracker.roster } ∧ (∀ k, k ≠ r → t.runout k = s.runout k) ∧
      (∀ b, 1 ≤ b → b ≤ s.tracker.roster.length → b ∈ s.queue g →
        t.boat b = { s.boat b with nextStep := s.firstStepAfter b s.clock }) ∧
      (∀ b, b ∉ s.queue g → t.boat b = s.boat b) ∧
      (lifts → t.runout r = some { x with floor := f, waitingLift := some f } ∧
        t.passage.motion = s.passage.motion ++ [s.liftWrite r f] ∧
        ∀ v, s.shadow ⟨.fin, r⟩ = some v → s.ringHasRoom →
          t.waitingReports = s.waitingReports ++ [.floorLift r f v]) ∧
      (¬ lifts → t.runout r = some { x with floor := f } ∧ t.passage = s.passage ∧ t.report = s.report)) ∧
  (∀ (c : Instr) (s t : State) (r : Nat), s.Sound → exec c s = .next t → s.touchesFloor t r →
    t.HoldsFloor r ∧ t.Lifts r) ∧
  ∀ s t : State, s.Sound → s.HoldsFloors → step s = .next t → t.HoldsFloors

/-- SET_PROFILE with a class, a count and its steps in order: the class's buffer takes the steps; in STOPPED or at a
quiet point every buffer becomes its active profile and the result is DONE APPLIED, otherwise the buffers wait and it is
DONE BUFFERED, with the brake image asked for either way; steps that are out of range or out of order, an odd list and
fewer than two arguments are INVALID, and accepted ones are refused WRONG-STATE in OFFLINE(NO-CONFIG). A profile's floor
is 4 before its first step and then the stage of the last step reached. PROFILE_STEP: the floor of the run-out is
recomputed: 4 while a boat is expected, else the highest profile floor of its boats, each by its weight class and a boat
with none as HEAVY; a rise above the fin shadow and the waiting lift decides a floor lift. The floor is recomputed in
the same way after every command that touches a run-out, its feed segment or the reservations into it (R105 to R110).
That PROFILE_STEP may be taken later than its time is the model's choice (log entry 3). -/
def Obligations.ProfilesGiveTheBrakeFloor : Prop :=
  FloorsFollowTheModel ∧
  (∀ p : Profiles, p.forClass (some .light) = p.light ∧ p.forClass (some .medium) = p.medium ∧
    p.forClass (some .heavy) = p.heavy ∧ p.forClass none = p.heavy) ∧
  (∀ (steps : List ProfileStep) (x : Nat),
    ((∀ p ∈ steps, x < p.time) → profileFloor steps x = 4) ∧
    ∀ p after before, steps = before ++ p :: after → p.time ≤ x → (∀ q ∈ after, x < q.time) →
      profileFloor steps x = p.stage) ∧
  (∀ (s : State) (tag : BitVec 16) (args : List Word), s.Takes .setProfile → args.length ≤ 15 →
    (args.length < 2 ∨ args.length % 2 = 1) →
    ∃ t, exec (.setProfile ⟨tag, args⟩) s = .next t ∧ Keeps [.passage, .directive] s t ∧
      s.Answers t tag .setProfile .invalid (some .badArguments) []) ∧
  (∀ (s : State) (tag : BitVec 16) (k n : Word) (steps : List (Word × Word)), s.Takes .setProfile →
    steps.length ≤ 6 →
    let r : Request := ⟨tag, k :: n :: steps.flatMap fun p => [p.1, p.2]⟩
    let given := steps.map fun p => ProfileStep.mk p.1.toNat p.2.toNat
    let accepted := k.toNat ≤ 2 ∧ 1 ≤ n.toNat ∧ n.toNat ≤ 4 ∧ steps.length = n.toNat ∧
      (∀ p ∈ given, p.time ≤ 60000 ∧ p.stage ≤ 4) ∧
      (∀ i a b, given[i]? = some a → given[i + 1]? = some b → a.time < b.time ∧ b.stage ≤ a.stage)
    let buffer := s.brake.buffer.put k.toNat given
    (accepted → s.ride.state = .offline .noConfig → ∃ t, exec (.setProfile r) s = .next t ∧
      Keeps [.passage, .directive] s t ∧ s.Answers t tag .setProfile .refused (some .wrongState) []) ∧
    (accepted → s.ride.state ≠ .offline .noConfig → s.ride.state = .stopped ∨ s.runoutsQuiet = true →
      ∃ t, exec (.setProfile r) s = .next t ∧ t.brake.buffer = buffer ∧ t.brake.active = buffer ∧
        t.brake.pending = false ∧ t.passage.upkeep.any (·.asksFor .brake) = true ∧
        s.Answers t tag .setProfile .done none [1]) ∧
    (accepted → s.ride.state ≠ .offline .noConfig → s.ride.state ≠ .stopped → s.runoutsQuiet = false →
      ∃ t, exec (.setProfile r) s = .next t ∧ Keeps [.passage, .brake, .directive] s t ∧
        t.passage.upkeep.any (·.asksFor .brake) = true ∧ t.brake = { s.brake with buffer := buffer, pending := true } ∧
        s.Answers t tag .setProfile .done none [2]) ∧
    (¬ accepted → ∃ t, exec (.setProfile r) s = .next t ∧ Keeps [.passage, .directive] s t ∧
      s.Answers t tag .setProfile .invalid (some .badArguments) [])) ∧
  ∀ (s : State) (b g r when_ : Nat) (x : RunoutLive), s.resetAsserted = false → s.RosterLaw →
    (s.boat b).segment = some g → (s.config.segment g).runout = some r → s.config.runoutSegment r = some g →
    (s.boat b).nextStep = some when_ → when_ ≤ s.clock → s.runout r = some x → b ∈ s.queue g →
    ∃ t f, exec (.profileStep b) s = .next t ∧ t.brakeFloor r = f ∧
      (s.runoutExpected g = true → f = 4) ∧
      (s.runoutExpected g = false →
        (∀ z ∈ s.queue g, profileFloor (s.brake.active.forClass (s.boat z).weightClass)
          (s.clock - (s.boat z).arrival) ≤ f) ∧
        ∃ z ∈ s.queue g, f = profileFloor (s.brake.active.forClass (s.boat z).weightClass)
          (s.clock - (s.boat z).arrival)) ∧
      (∀ z ∈ s.queue g, (t.boat z).nextStep = s.firstStepAfter z s.clock) ∧
      (f = x.floor ∨ s.shadow ⟨.fin, r⟩ = none ∨ (∃ v, s.shadow ⟨.fin, r⟩ = some v ∧ f ≤ v) ∨
          (∃ w, x.waitingLift = some w ∧ f ≤ w) → t.passage.motion = s.passage.motion) ∧
      (∀ v, x.floor < f → s.shadow ⟨.fin, r⟩ = some v → v < f → (∀ w, x.waitingLift = some w → w < f) →
        t.passage.motion = s.passage.motion ++
          [⟨⟨.fin, r⟩, s.config.wordAddr ⟨.fin, r⟩, f, .floorLift r, false⟩]) ∧
      t.tracker.segments = s.tracker.segments ∧ t.ride = s.ride

/-- The stall condition of a conveyor: its CREST holds a boat and the load of the destination of the CREST's single exit
is at or above its capacity. A recomputation that gives the condition it had changes nothing, and one that clears it
clears the record's alone. Where the condition arises, or a completed write sets the speed shadow above 0 while it
holds, with no stop of the conveyor waiting, a stop is decided: 0 to the speed word joins the MOTION class, and the
STALL-STOP record names the CREST's head boat (the model's choice where it holds several, log entry 45) and the shadow;
with the shadow 0 or unknown, or a stop waiting, none is. The completion of the stop clears that it waits. Where the
records hold the condition as the model gives it, they do so after every command (R115, R116). -/
def ConveyorsStallAndStop : Prop :=
  (∀ (s : State) (c g e : Nat) (d : EdgeCfg), s.config.crestSegment c = some g → s.config.exits g = [e] →
    s.config.edges[e]? = some d →
    (s.stallCondition c = true ↔
      s.queue g ≠ [] ∧ (s.config.segment d.destination).capacity ≤ s.load d.destination)) ∧
  (∀ (s : State) (c : Nat) (x : ConveyorLive), s.conveyor c = some x →
    let t := recomputeStall c s
    let stops := x.stopWaiting = false ∧ ∃ v, s.shadow ⟨.speed, c⟩ = some v ∧ 0 < v
    (x.stalled = s.stallCondition c → t = s) ∧
    (x.stalled = true → s.stallCondition c = false → t = s.setConveyor c fun y => { y with stalled := false }) ∧
    (x.stalled = false → s.stallCondition c = true →
      Keeps [.passage, .brake, .report] s t ∧
      (stops → t.conveyor c = some { x with stalled := true, stopWaiting := true } ∧
        t.passage.motion = s.passage.motion ++ [s.stallStopWrite c] ∧
        ∀ v, s.shadow ⟨.speed, c⟩ = some v → s.ringHasRoom →
          t.waitingReports = s.waitingReports ++ [s.stallStopReport c v]) ∧
      (¬ stops → t = s.setConveyor c fun y => { y with stalled := true }))) ∧
  (∀ (s : State) (c : Nat) (x : ConveyorLive) (m : MotionWrite), s.resetAsserted = false → s.TablesLaw → c < 4 →
    s.config.bound ⟨.speed, c⟩ = true → s.conveyor c = some x → s.passage.port = some m → m.word = ⟨.speed, c⟩ →
    m.oldMap = false →
    ∃ t, exec .motionWriteComplete s = .next t ∧ t.shadow ⟨.speed, c⟩ = some m.value ∧
      (m.origin ≠ .stallStop c → x.stalled = true → x.stopWaiting = false → 0 < m.value →
        s.shadow ⟨.speed, c⟩ ≠ some m.value →
        s.passage.motion ++ [s.stallStopWrite c] <+: t.passage.motion ∧
        (t.conveyor c).map (·.stopWaiting) = some true ∧
        (m.entry? = none → s.ringHasRoom →
          s.waitingReports ++ [s.stallStopReport c m.value] <+: t.waitingReports)) ∧
      (m.origin = .stallStop c → m.value = 0 → (t.conveyor c).map (·.stopWaiting) = some false)) ∧
  ∀ (c : Instr) (s t : State), exec c s = .next t → s.HoldsStalls → t.HoldsStalls

/-- The fin-lag timer acts on a change of a run-out's feedback, and on a change of its fin shadow, which a FIN_WRITE or a
MOTION_WRITE_COMPLETE brings: fins are short at NO-READING or at a stage below the fin
shadow, have reached their word at a stage at or above it, and neither while the feedback is none or the shadow unknown;
short fins start an IDLE timer at the ride clock and leave a RUNNING or EXPIRED one, and any other standing makes it IDLE.
FIN_LAG_EXPIRY, with the timer running for the fin lag: it is EXPIRED, the run-out FAULTED, BRAKE-SHORT raised with its
segment. A conveyor's stall condition holds while its CREST holds a boat and the CREST's successor is at capacity; where it
arises, or the speed shadow rises above 0 while it holds, with no stop waiting, a stop of 0 and its STALL-STOP record are
decided, and the stop's completion clears that it waits; records that hold the condition as the model gives it do so after
every command (R111 to R113, R115, R116). That the expiry may be taken later than its time, and that the record names the
head boat where the CREST holds several, are the model's choices (log entries 3 and 45). -/
def Obligations.ShortFinsRunTheLagTimer : Prop :=
  ConveyorsStallAndStop ∧
  (∀ (s : State) (r : Nat) (x : RunoutLive) (f : FinFeedback), s.runout r = some x → x.feedback ≠ f →
    let short := ∃ v, s.shadow ⟨.fin, r⟩ = some v ∧ (f = .noReading ∨ ∃ n, f = .stage n ∧ n < v)
    (short → (setFeedback r f s).runout r = some { x with
      feedback := f, timer := if x.timer = .idle then .running s.clock else x.timer }) ∧
    (¬ short → (setFeedback r f s).runout r = some { x with feedback := f, timer := .idle })) ∧
  (∀ (c : Instr) (s t : State) (r : Nat) (x : RunoutLive), c = .finWrite ∨ c = .motionWriteComplete →
    s.TablesLaw → exec c s = .next t → s.runout r = some x →
    (t.shadow ⟨.fin, r⟩ = s.shadow ⟨.fin, r⟩ → (t.runout r).map (·.timer) = some x.timer) ∧
    ∀ v, t.shadow ⟨.fin, r⟩ = some v → s.shadow ⟨.fin, r⟩ ≠ some v →
      let short := x.feedback = .noReading ∨ ∃ n, x.feedback = .stage n ∧ n < v
      (short → (t.runout r).map (·.timer) = some (if x.timer = .idle then .running s.clock else x.timer)) ∧
      (¬ short → (t.runout r).map (·.timer) = some .idle)) ∧
  ∀ (s : State) (r g start : Nat) (x : RunoutLive), s.resetAsserted = false → s.TablesLaw →
    s.config.runoutSegment r = some g → s.runout r = some x → x.timer = .running start →
    start + s.config.finLag ≤ s.clock →
    ∃ t, exec (.finLagExpiry r) s = .next t ∧ (t.runout r).map (·.timer) = some .expired ∧ t.faulted g = true ∧
      (∀ h, t.queue h = s.queue h) ∧ s.Raised t .brakeShort .segment g

/-! ## Ride states, trips and drills -/

/-- START_RIDE with no arguments: in STOPPED with no drill and no position FAILED the ride is RUNNING with its permit on,
the pacer has no last launch, each boat in a segment with a maximum dwell starts its dwell clock at the ride clock, and the
result is DONE; otherwise it is refused WRONG-STATE, DRILL-ACTIVE or SUSTAIN-FAILED with the lowest FAILED position, and
with arguments it is INVALID, as is a DRILL with any but one argument of 0 or 1. DRILL_SUSTAIN in STOPPED: every result is
UNTESTED and the drill is WITHHELD for 10 rounds with no result yet; in another state it is refused WRONG-STATE (R44, R99,
R139, R154, R158, R159). -/
def Obligations.RidesAndSustainDrillsStart : Prop :=
  InvalidCount .startRide .startRide (· = 0) ∧
  (∀ (s : State) (tag : BitVec 16) (args : List Word), (∀ k, args = [k] → 1 < k.toNat) →
    dispatch .drill tag args s = s.answer tag 5 .invalid (some .badArguments) []) ∧
  (∀ (s : State) (tag : BitVec 16), s.Takes .startRide →
    let refused (r : Reason) (d : List Nat) := ∃ t, exec (.startRide ⟨tag, []⟩) s = .next t ∧
      Keeps [.passage, .directive] s t ∧ s.Answers t tag .startRide .refused (some r) d
    (s.ride.state ≠ .stopped → refused .wrongState []) ∧
    (s.ride.state = .stopped → s.ride.drill ≠ none → refused .drillActive []) ∧
    (∀ p, s.ride.state = .stopped → s.ride.drill = none → 1 ≤ p → p ≤ 16 → (s.node p).result = .failed →
      (∀ q, 1 ≤ q → q < p → (s.node q).result ≠ .failed) → refused .sustainFailed [p]) ∧
    (s.ride.state = .stopped → s.ride.drill = none → (∀ p, 1 ≤ p → p ≤ 16 → (s.node p).result ≠ .failed) →
      ∃ t, exec (.startRide ⟨tag, []⟩) s = .next t ∧ t.ride = { s.ride with state := .running, permit := true } ∧
        t.berth.pacer.map (fun p => (p.interval, p.buffer, p.lastLaunch)) =
          s.berth.pacer.map (fun p => (p.interval, p.buffer, none)) ∧
        (∀ b g, 1 ≤ b → b ≤ 32 → (s.boat b).segment = some g → (s.config.segment g).maxDwell ≠ none →
          (t.boat b).dwell = .running s.clock) ∧
        (∀ g, t.segment g = s.segment g) ∧ t.verdict = s.verdict ∧
        s.tracker.reservations <+: t.tracker.reservations ∧
        s.Answers t tag .startRide .done none [])) ∧
  ∀ (s : State) (tag : BitVec 16), s.Takes .drill →
    (s.ride.state = .stopped → ∃ t, exec (.drillSustain tag) s = .next t ∧ Keeps [.passage, .line, .ride] s t ∧
      t.ride = { s.ride with drill := some ⟨tag, .withheld, 10⟩ } ∧
      (∀ p, t.node p = { s.node p with result := .untested }) ∧ t.line.state = s.line.state ∧
      t.line.slot = s.line.slot) ∧
    (s.ride.state ≠ .stopped → ∃ t, exec (.drillSustain tag) s = .next t ∧ Keeps [.passage, .directive] s t ∧
      s.Answers t tag .drill .refused (some .wrongState) [])

/-- STOP_RIDE in RUNNING: the hold queue is empty and every performance withdrawn, also one that holds the memory port
(log entry 18). RESET_TRIP in TRIPPED with the line UP, no node LOST, no eye FAULT, no estop contact OPEN, no segment
FAULTED and CTRL-RESET-SENSE deasserted; the first of these that fails refuses it with its reason and detail. Both then
enter STOPPED with the permit on and the trip block kept, or take the pending image in place of the entry; the result is
DONE. In another state each is refused WRONG-STATE, and with arguments each is INVALID (R78, R146, R155, R157, R187). -/
def Obligations.RidesStopAndTripsAreReset : Prop :=
  InvalidCount .stopRide .stopRide (· = 0) ∧ InvalidCount .resetTrip .resetTrip (· = 0) ∧
  (∀ (s : State) (tag : BitVec 16), s.Takes .stopRide →
    (s.ride.state ≠ .running → ∃ t, exec (.stopRide ⟨tag, []⟩) s = .next t ∧ Keeps [.passage, .directive] s t ∧
      s.Answers t tag .stopRide .refused (some .wrongState) []) ∧
    (s.ride.state = .running → s.loader.pendingImage = none → ∃ t, exec (.stopRide ⟨tag, []⟩) s = .next t ∧
      t.ride = { s.ride with state := .stopped, permit := true } ∧ t.hold.entries = [] ∧
      s.passage.motion.filter (·.entry?.isNone) <+: t.passage.motion ∧
      (∀ m ∈ t.passage.motion, m.entry? = none) ∧ t.passage.port = s.passage.port.filter (·.entry?.isNone) ∧
      (∀ g, t.segment g = s.segment g) ∧ t.tracker.reservations = s.tracker.reservations ∧
      t.verdict = s.verdict ∧ s.Answers t tag .stopRide .done none []) ∧
    (∀ i, s.ride.state = .running → s.loader.pendingImage = some i →
      ∃ t, exec (.stopRide ⟨tag, []⟩) s = .next t ∧ s.TakesImage t i ∧ (∀ m ∈ t.passage.motion, m.entry? = none) ∧
        (∀ m, t.passage.port = some m → m.entry? = none) ∧
        s.Answers t tag .stopRide .done none [])) ∧
  ∀ (s : State) (tag : BitVec 16), s.Takes .resetTrip → s.TablesLaw →
    let refused (r : Reason) (d : List Nat) := ∃ t, exec (.resetTrip ⟨tag, []⟩) s = .next t ∧
      Keeps [.passage, .directive] s t ∧ s.Answers t tag .resetTrip .refused (some r) d
    let up := s.line.state = .up
    let heard := ∀ p, 1 ≤ p → p ≤ 16 → (s.node p).state ≠ .lost
    let sighted := ∀ e < s.config.edges.length, (s.eye e).state ≠ .fault
    let closed := ∀ p, 1 ≤ p → p ≤ 16 → (s.node p).estopOpen = false
    let sound := ∀ g < s.config.segments.length, s.faulted g = false
    (s.ride.state ≠ .tripped → refused .wrongState []) ∧
    (s.ride.state = .tripped →
      (¬ up → refused .lineNotUp [s.line.state.code]) ∧
      (∀ p, up → 1 ≤ p → p ≤ 16 → (s.node p).state = .lost → (∀ q, 1 ≤ q → q < p → (s.node q).state ≠ .lost) →
        refused .nodeLost [p]) ∧
      (∀ e, up → heard → e < s.config.edges.length → (s.eye e).state = .fault →
        (∀ f < e, (s.eye f).state ≠ .fault) → refused .eyeFault [e]) ∧
      (∀ p, up → heard → sighted → 1 ≤ p → p ≤ 16 → (s.node p).estopOpen = true →
        (∀ q, 1 ≤ q → q < p → (s.node q).estopOpen = false) → refused .estopOpen [p]) ∧
      (∀ g, up → heard → sighted → closed → g < s.config.segments.length → s.faulted g = true →
        (∀ h < g, s.faulted h = false) → refused .segmentFaulted [g]) ∧
      (up → heard → sighted → closed → sound → s.ride.senseLevel = true → refused .controllerInReset [0]) ∧
      (up → heard → sighted → closed → sound → s.ride.senseLevel = false →
        (s.loader.pendingImage = none → ∃ t, exec (.resetTrip ⟨tag, []⟩) s = .next t ∧
          t.ride = { s.ride with state := .stopped, permit := true } ∧ (∀ g, t.segment g = s.segment g) ∧
          t.tracker.reservations = s.tracker.reservations ∧ t.verdict = s.verdict ∧
          s.Answers t tag .resetTrip .done none []) ∧
        ∀ i, s.loader.pendingImage = some i →
          ∃ t, exec (.resetTrip ⟨tag, []⟩) s = .next t ∧ s.TakesImage t i ∧
            s.Answers t tag .resetTrip .done none []))

/-- STOP_NOW, whatever directive is in progress: in STOPPED and RUNNING the ride trips with HALT-REQUEST and detail 0, in
TRIPPED the cause is added, and the result is DONE with its own tag; in OFFLINE it is refused WRONG-STATE. It is never
answered BUSY, and the directive in progress stands as it was, but for a sustain drill, which the trip aborts with a result
of its own tag in the same event; a discovery runs on. With arguments it is INVALID, whatever is in progress (R156). -/
def Obligations.StopNowTripsWhateverIsInProgress : Prop :=
  InvalidCount .stopNow .stopNow (· = 0) ∧
  ∀ (s : State) (tag : BitVec 16), s.resetAsserted = false →
    ((s.ride.state = .stopped ∨ s.ride.state = .running ∨ s.ride.state = .tripped) →
      ∃ t, exec (.stopNow ⟨tag, []⟩) s = .next t ∧ s.Raised t .haltRequest .none 0 ∧
        t.directive.argument = s.directive.argument ∧ t.directive.long = s.directive.long ∧
        t.line = { s.line with nodes := t.line.nodes } ∧
        (s.ride.state = .tripped ∨ s.ride.drill = none → t.line = s.line) ∧
        (s.ride.state = .tripped ∨ s.ride.drill = none → s.Answers t tag .stopNow .done none []) ∧
        (∀ d, s.ride.state ≠ .tripped → s.ride.drill = some d →
          t.directive.resultCount = ((s.directive.resultCount + 1) % 65536 + 1) % 65536 ∧
          (t.directive.result = some ⟨tag, 3, .done, none, [], t.directive.resultCount⟩ ∨
            t.directive.result = some ⟨d.tag, 5, .aborted, none, [d.phase.code], t.directive.resultCount⟩))) ∧
    (∀ r, s.ride.state = .offline r → ∃ t, exec (.stopNow ⟨tag, []⟩) s = .next t ∧
      Keeps [.passage, .directive] s t ∧ s.Answers t tag .stopNow .refused (some .wrongState) [])

/-- The trip action in STOPPED or RUNNING, as a cause brings it about: the ride is TRIPPED with its permit off and a
trip block of the cause alone; every entry and every performance not yet complete is purged, also one that holds the
memory port (log entry 18); behind the motion writes that stay, CLOSED to every bound release word, 4 to every bound fin
word and 0 to every bound speed word are queued in ascending order; a sustain drill is answered ABORTED with its phase,
before the DONE of a STOP_NOW that brought the trip about (log entry 13), and the MISSING nodes return to ACTIVE where
it was withholding rounds with the line UP (log entry 32); and with no entry, no performance and no drill the records
are TRIP, then STATE. DRILL_TRIP brings it about in STOPPED, and a change of CTRL-RESET-SENSE to asserted in STOPPED,
RUNNING and, as an added cause, in TRIPPED; the level is recorded in any case (R78, R84, R139, R148 to R151, R153, R158,
R160). -/
def Obligations.TripsPurgeAndMoveEveryWordToSafe : Prop :=
  (∀ (s : State) (cause : Cause) (k : DetailKind) (detail : Nat),
    s.ride.state = .stopped ∨ s.ride.state = .running →
    let t := raiseCause cause k detail s
    s.Raised t cause k detail ∧
    t.passage.motion = s.passage.motion.filter (·.entry?.isNone) ++ safeWritesOf s.config
      (s.config.boundWords .release ++ s.config.boundWords .fin ++ s.config.boundWords .speed) ∧
    t.passage.port = s.passage.port.filter (·.entry?.isNone) ∧
    t.tracker = s.tracker ∧ t.verdict = s.verdict ∧ t.memory = s.memory ∧
    t.line = { s.line with nodes := t.line.nodes } ∧ (∀ p, s.NodeStands t p) ∧
    (s.ride.drill = none → t.directive = s.directive) ∧
    (∀ d, s.ride.drill = some d → t.directive.result =
      some ⟨d.tag, 5, .aborted, none, [if d.phase = .withheld then 1 else 2], t.directive.resultCount⟩) ∧
    (s.hold.entries = [] → (∀ m ∈ s.passage.motion, m.entry? = none) → (∀ m, s.passage.port = some m → m.entry? = none) →
      s.ride.drill = none → s.configured = true →
      (s.report.assigned + 1) % s.config.ringCount ≠ s.report.consumer →
      ((s.report.assigned + 1) % s.config.ringCount + 1) % s.config.ringCount ≠ s.report.consumer →
      t.waitingReports = s.waitingReports ++
        [.trip cause k detail false [cause], .state s.ride.state .tripped .trip])) ∧
  (∀ (s : State) (tag : BitVec 16), s.resetAsserted = false → s.ride.state = .stopped ∨ s.ride.state = .running →
    ∃ t, exec (.stopNow ⟨tag, []⟩) s = .next t ∧
      t.directive.result = some ⟨tag, 3, .done, none, [], t.directive.resultCount⟩) ∧
  (∀ (s : State) (tag : BitVec 16), s.Takes .drill →
    (s.ride.state = .stopped → ∃ t, exec (.drillTrip tag) s = .next t ∧ s.Raised t .drill .none 0 ∧
      t.directive.result = some ⟨tag, 5, .done, none, [], t.directive.resultCount⟩) ∧
    (s.ride.state ≠ .stopped → ∃ t, exec (.drillTrip tag) s = .next t ∧ Keeps [.passage, .directive] s t ∧
      s.Answers t tag .drill .refused (some .wrongState) [])) ∧
  ∀ s : State, s.resetAsserted = false →
    (s.sensePin = true → ∃ t, exec (.ctrlResetSense false) s = .next t ∧ Keeps [.passage, .sensePin, .ride] s t ∧
      t.sensePin = false ∧ t.ride = { s.ride with senseLevel := false }) ∧
    (s.sensePin = false → ∃ t, exec (.ctrlResetSense true) s = .next t ∧ t.sensePin = true ∧
      t.ride.senseLevel = true ∧ t.tracker = s.tracker ∧ t.verdict = s.verdict ∧
      { s with ride := { s.ride with senseLevel := true } }.Raised t .controllerReset .none 0)

/-! ## The stored configuration -/

/-- COMMIT_CONFIG with a length that is a multiple of 4 from 16 to 2304 becomes the long directive in progress, with one
UPKEEP read for each 4 words of the staging area in ascending order; another length, or another count of arguments, is
INVALID. STAGING_READ_COMPLETE: the words are read as memory holds them. Before the last of them they join the bytes
read; with the last the image is validated and the directive ends: an invalid image is REFUSED CONFIG-INVALID with check
and item, a valid one becomes pending in RUNNING and TRIPPED, and is taken in STOPPED, OFFLINE(NO-CONFIG) and
OFFLINE(LINE-FAILED). A take asks for 0 in the producer and consumer index words before any of its records, for every
roster record with its STAY word cleared, and for the whole status page (R182, R185 to R187); the order of the records
of a take, the CRC word of the first and the 0 for a position or count in the last are the model's (log entries 17, 26
and 48). -/
def Obligations.CommitsReadValidateAndTake : Prop :=
  InvalidCount .commitConfig .commitConfig (· = 1) ∧
  (∀ (s : State) (tag : BitVec 16) (x : Word), s.Takes .commitConfig →
    (x.toNat % 4 = 0 → 16 ≤ x.toNat → x.toNat ≤ 2304 →
      ∃ t, exec (.commitConfig ⟨tag, [x]⟩) s = .next t ∧ Keeps [.passage, .directive] s t ∧
        t.directive = { s.directive with long := some (.commit tag x.toNat []) } ∧
        s.passage.upkeep ++ (List.range ((x.toNat + 15) / 16)).map (fun i =>
          UpkeepRequest.staging (16 * i) (min 4 ((x.toNat - 16 * i) / 4))) <+: t.passage.upkeep) ∧
    (x.toNat % 4 ≠ 0 ∨ x.toNat < 16 ∨ 2304 < x.toNat →
      ∃ t, exec (.commitConfig ⟨tag, [x]⟩) s = .next t ∧ Keeps [.passage, .directive] s t ∧
        s.Answers t tag .commitConfig .invalid (some .badArguments) [])) ∧
  ∀ (s : State) (offset words n : Nat) (tag : BitVec 16) (sofar : List Byte), s.resetAsserted = false →
    s.upkeepGrant = some (.staging offset words) → s.directive.long = some (.commit tag n sofar) →
    let all := sofar ++ Memory.readBytes s.memory (0xFFF700 + offset) (4 * words)
    (all.length < n → ∃ t, exec .stagingReadComplete s = .next t ∧ Keeps [.passage, .directive] s t ∧
      t.directive = { s.directive with long := some (.commit tag n all) } ∧
      s.passage.upkeep.tail <+: t.passage.upkeep) ∧
    (n ≤ all.length →
      (∀ check item, validate all (some n) = .invalid check item →
        ∃ t, exec .stagingReadComplete s = .next t ∧ Keeps [.passage, .directive, .report, .loader] s t ∧
          t.loader = { s.loader with failure := (check, item) } ∧ t.directive.long = none ∧
          s.Answers t tag .commitConfig .refused (some .configInvalid) [check, item]) ∧
      (∀ i, validate all (some n) = .valid i →
        (s.ride.state = .running ∨ s.ride.state = .tripped →
          ∃ t, exec .stagingReadComplete s = .next t ∧ Keeps [.passage, .directive, .report, .loader] s t ∧
            t.loader = { s.loader with pendingImage := some i } ∧ t.directive.long = none ∧
            s.Answers t tag .commitConfig .done none [4]) ∧
        (s.ride.state = .stopped ∨ s.ride.state = .offline .noConfig ∨ s.ride.state = .offline .lineFailed →
          ∃ t, exec .stagingReadComplete s = .next t ∧ s.TakesImage t i ∧ t.directive.long = none ∧
            s.Answers t tag .commitConfig .done none [3] ∧
            (i.config.Laid →
              t.waitingReports = [.config .taken 0 0 i.crc 0,
                .state s.ride.state (.offline .discovering) .configTake, .line .discovering .none 0]))))

/-- SAVE_PAGE_ACK within 20 ms of the page's sending: the store holds the page's bytes of the image; after the last page
the save is SAVED, before it the next page is sent. SAVE_PAGE_TIMEOUT at 20 ms: the save is FAILED with the page, and
the store keeps what it holds. The store changes under no other command, and in no other byte (R188, R189). The CRC word
of the CONFIG records, that the timeout may be taken later than its time, and that the store holds nothing of a page
before its acknowledgement, are the model's (log entries 26, 3 and 47). -/
def Obligations.SavesWriteThePagesInOrder : Prop :=
  (∀ (s : State) (page sentAt crc : Nat) (image : List Byte), s.resetAsserted = false → s.loader.store.wf = true →
    s.loader.save = .saving page sentAt image crc →
    (s.clock ≤ sentAt + 20 → ∃ t, exec .savePageAck s = .next t ∧ Keeps [.passage, .report, .loader] s t ∧
      (∀ i < 32, 32 * page + i < image.length → t.loader.store.read (32 * page + i) = image.getD (32 * page + i) 0) ∧
      (∀ k, k < 32 * page ∨ 32 * page + 32 ≤ k → t.loader.store.read k = s.loader.store.read k) ∧
      (image.length ≤ 32 * page + 32 → t.loader = { s.loader with store := t.loader.store, save := .saved } ∧
        (s.ringHasRoom → s.waitingReports ++ [.config .saved 0 0 crc 0] <+: t.waitingReports)) ∧
      (32 * page + 32 < image.length → t.loader = { s.loader with
        store := t.loader.store, save := .saving (page + 1) s.clock image crc })) ∧
    (sentAt + 20 ≤ s.clock → ∃ t, exec .savePageTimeout s = .next t ∧ Keeps [.passage, .report, .loader] s t ∧
      t.loader = { s.loader with save := .failed page } ∧
      (s.ringHasRoom → s.waitingReports ++ [.config .saveFailed 0 0 crc page] <+: t.waitingReports))) ∧
  ∀ (c : Instr) (s t : State), exec c s = .next t →
    (c ≠ .savePageAck → t.loader.store = s.loader.store) ∧
      (∀ page at' image crc k, s.loader.save = .saving page at' image crc → s.loader.store.wf = true →
        (k < 32 * page ∨ 32 * page + 32 ≤ k) → t.loader.store.read k = s.loader.store.read k)
end

