-- ==== Sys2Proof/Laws/State.lean ====
section
/-!
SUPPORT. Reading a unit of the state after one unit has been replaced: the replaced unit is the new one, every other
unit is as before. One lemma for each setter and field, so that no proof unfolds a record update.
-/

namespace Sys2Proof.Machine

@[simp] theorem State.setClock_pending (s : State) (v : Nat) : (s.setClock v).pending = s.pending := rfl
@[simp] theorem State.setClock_clock (s : State) (v : Nat) : (s.setClock v).clock = v := rfl
@[simp] theorem State.setClock_resetAsserted (s : State) (v : Nat) : (s.setClock v).resetAsserted = s.resetAsserted := rfl
@[simp] theorem State.setClock_sensePin (s : State) (v : Nat) : (s.setClock v).sensePin = s.sensePin := rfl
@[simp] theorem State.setClock_memory (s : State) (v : Nat) : (s.setClock v).memory = s.memory := rfl
@[simp] theorem State.setClock_passage (s : State) (v : Nat) : (s.setClock v).passage = s.passage := rfl
@[simp] theorem State.setClock_verdict (s : State) (v : Nat) : (s.setClock v).verdict = s.verdict := rfl
@[simp] theorem State.setClock_hold (s : State) (v : Nat) : (s.setClock v).hold = s.hold := rfl
@[simp] theorem State.setClock_tracker (s : State) (v : Nat) : (s.setClock v).tracker = s.tracker := rfl
@[simp] theorem State.setClock_berth (s : State) (v : Nat) : (s.setClock v).berth = s.berth := rfl
@[simp] theorem State.setClock_brake (s : State) (v : Nat) : (s.setClock v).brake = s.brake := rfl
@[simp] theorem State.setClock_line (s : State) (v : Nat) : (s.setClock v).line = s.line := rfl
@[simp] theorem State.setClock_ride (s : State) (v : Nat) : (s.setClock v).ride = s.ride := rfl
@[simp] theorem State.setClock_directive (s : State) (v : Nat) : (s.setClock v).directive = s.directive := rfl
@[simp] theorem State.setClock_report (s : State) (v : Nat) : (s.setClock v).report = s.report := rfl
@[simp] theorem State.setClock_loader (s : State) (v : Nat) : (s.setClock v).loader = s.loader := rfl

@[simp] theorem State.setResetAsserted_pending (s : State) (v : Bool) : (s.setResetAsserted v).pending = s.pending := rfl
@[simp] theorem State.setResetAsserted_clock (s : State) (v : Bool) : (s.setResetAsserted v).clock = s.clock := rfl
@[simp] theorem State.setResetAsserted_resetAsserted (s : State) (v : Bool) : (s.setResetAsserted v).resetAsserted = v := rfl
@[simp] theorem State.setResetAsserted_sensePin (s : State) (v : Bool) : (s.setResetAsserted v).sensePin = s.sensePin := rfl
@[simp] theorem State.setResetAsserted_memory (s : State) (v : Bool) : (s.setResetAsserted v).memory = s.memory := rfl
@[simp] theorem State.setResetAsserted_passage (s : State) (v : Bool) : (s.setResetAsserted v).passage = s.passage := rfl
@[simp] theorem State.setResetAsserted_verdict (s : State) (v : Bool) : (s.setResetAsserted v).verdict = s.verdict := rfl
@[simp] theorem State.setResetAsserted_hold (s : State) (v : Bool) : (s.setResetAsserted v).hold = s.hold := rfl
@[simp] theorem State.setResetAsserted_tracker (s : State) (v : Bool) : (s.setResetAsserted v).tracker = s.tracker := rfl
@[simp] theorem State.setResetAsserted_berth (s : State) (v : Bool) : (s.setResetAsserted v).berth = s.berth := rfl
@[simp] theorem State.setResetAsserted_brake (s : State) (v : Bool) : (s.setResetAsserted v).brake = s.brake := rfl
@[simp] theorem State.setResetAsserted_line (s : State) (v : Bool) : (s.setResetAsserted v).line = s.line := rfl
@[simp] theorem State.setResetAsserted_ride (s : State) (v : Bool) : (s.setResetAsserted v).ride = s.ride := rfl
@[simp] theorem State.setResetAsserted_directive (s : State) (v : Bool) : (s.setResetAsserted v).directive = s.directive := rfl
@[simp] theorem State.setResetAsserted_report (s : State) (v : Bool) : (s.setResetAsserted v).report = s.report := rfl
@[simp] theorem State.setResetAsserted_loader (s : State) (v : Bool) : (s.setResetAsserted v).loader = s.loader := rfl

@[simp] theorem State.setSensePin_pending (s : State) (v : Bool) : (s.setSensePin v).pending = s.pending := rfl
@[simp] theorem State.setSensePin_clock (s : State) (v : Bool) : (s.setSensePin v).clock = s.clock := rfl
@[simp] theorem State.setSensePin_resetAsserted (s : State) (v : Bool) : (s.setSensePin v).resetAsserted = s.resetAsserted := rfl
@[simp] theorem State.setSensePin_sensePin (s : State) (v : Bool) : (s.setSensePin v).sensePin = v := rfl
@[simp] theorem State.setSensePin_memory (s : State) (v : Bool) : (s.setSensePin v).memory = s.memory := rfl
@[simp] theorem State.setSensePin_passage (s : State) (v : Bool) : (s.setSensePin v).passage = s.passage := rfl
@[simp] theorem State.setSensePin_verdict (s : State) (v : Bool) : (s.setSensePin v).verdict = s.verdict := rfl
@[simp] theorem State.setSensePin_hold (s : State) (v : Bool) : (s.setSensePin v).hold = s.hold := rfl
@[simp] theorem State.setSensePin_tracker (s : State) (v : Bool) : (s.setSensePin v).tracker = s.tracker := rfl
@[simp] theorem State.setSensePin_berth (s : State) (v : Bool) : (s.setSensePin v).berth = s.berth := rfl
@[simp] theorem State.setSensePin_brake (s : State) (v : Bool) : (s.setSensePin v).brake = s.brake := rfl
@[simp] theorem State.setSensePin_line (s : State) (v : Bool) : (s.setSensePin v).line = s.line := rfl
@[simp] theorem State.setSensePin_ride (s : State) (v : Bool) : (s.setSensePin v).ride = s.ride := rfl
@[simp] theorem State.setSensePin_directive (s : State) (v : Bool) : (s.setSensePin v).directive = s.directive := rfl
@[simp] theorem State.setSensePin_report (s : State) (v : Bool) : (s.setSensePin v).report = s.report := rfl
@[simp] theorem State.setSensePin_loader (s : State) (v : Bool) : (s.setSensePin v).loader = s.loader := rfl

@[simp] theorem State.setMemory_pending (s : State) (v : Memory) : (s.setMemory v).pending = s.pending := rfl
@[simp] theorem State.setMemory_clock (s : State) (v : Memory) : (s.setMemory v).clock = s.clock := rfl
@[simp] theorem State.setMemory_resetAsserted (s : State) (v : Memory) : (s.setMemory v).resetAsserted = s.resetAsserted := rfl
@[simp] theorem State.setMemory_sensePin (s : State) (v : Memory) : (s.setMemory v).sensePin = s.sensePin := rfl
@[simp] theorem State.setMemory_memory (s : State) (v : Memory) : (s.setMemory v).memory = v := rfl
@[simp] theorem State.setMemory_passage (s : State) (v : Memory) : (s.setMemory v).passage = s.passage := rfl
@[simp] theorem State.setMemory_verdict (s : State) (v : Memory) : (s.setMemory v).verdict = s.verdict := rfl
@[simp] theorem State.setMemory_hold (s : State) (v : Memory) : (s.setMemory v).hold = s.hold := rfl
@[simp] theorem State.setMemory_tracker (s : State) (v : Memory) : (s.setMemory v).tracker = s.tracker := rfl
@[simp] theorem State.setMemory_berth (s : State) (v : Memory) : (s.setMemory v).berth = s.berth := rfl
@[simp] theorem State.setMemory_brake (s : State) (v : Memory) : (s.setMemory v).brake = s.brake := rfl
@[simp] theorem State.setMemory_line (s : State) (v : Memory) : (s.setMemory v).line = s.line := rfl
@[simp] theorem State.setMemory_ride (s : State) (v : Memory) : (s.setMemory v).ride = s.ride := rfl
@[simp] theorem State.setMemory_directive (s : State) (v : Memory) : (s.setMemory v).directive = s.directive := rfl
@[simp] theorem State.setMemory_report (s : State) (v : Memory) : (s.setMemory v).report = s.report := rfl
@[simp] theorem State.setMemory_loader (s : State) (v : Memory) : (s.setMemory v).loader = s.loader := rfl

@[simp] theorem State.setPassage_pending (s : State) (v : PassageUnit) : (s.setPassage v).pending = s.pending := rfl
@[simp] theorem State.setPassage_clock (s : State) (v : PassageUnit) : (s.setPassage v).clock = s.clock := rfl
@[simp] theorem State.setPassage_resetAsserted (s : State) (v : PassageUnit) : (s.setPassage v).resetAsserted = s.resetAsserted := rfl
@[simp] theorem State.setPassage_sensePin (s : State) (v : PassageUnit) : (s.setPassage v).sensePin = s.sensePin := rfl
@[simp] theorem State.setPassage_memory (s : State) (v : PassageUnit) : (s.setPassage v).memory = s.memory := rfl
@[simp] theorem State.setPassage_passage (s : State) (v : PassageUnit) : (s.setPassage v).passage = v := rfl
@[simp] theorem State.setPassage_verdict (s : State) (v : PassageUnit) : (s.setPassage v).verdict = s.verdict := rfl
@[simp] theorem State.setPassage_hold (s : State) (v : PassageUnit) : (s.setPassage v).hold = s.hold := rfl
@[simp] theorem State.setPassage_tracker (s : State) (v : PassageUnit) : (s.setPassage v).tracker = s.tracker := rfl
@[simp] theorem State.setPassage_berth (s : State) (v : PassageUnit) : (s.setPassage v).berth = s.berth := rfl
@[simp] theorem State.setPassage_brake (s : State) (v : PassageUnit) : (s.setPassage v).brake = s.brake := rfl
@[simp] theorem State.setPassage_line (s : State) (v : PassageUnit) : (s.setPassage v).line = s.line := rfl
@[simp] theorem State.setPassage_ride (s : State) (v : PassageUnit) : (s.setPassage v).ride = s.ride := rfl
@[simp] theorem State.setPassage_directive (s : State) (v : PassageUnit) : (s.setPassage v).directive = s.directive := rfl
@[simp] theorem State.setPassage_report (s : State) (v : PassageUnit) : (s.setPassage v).report = s.report := rfl
@[simp] theorem State.setPassage_loader (s : State) (v : PassageUnit) : (s.setPassage v).loader = s.loader := rfl

@[simp] theorem State.setVerdict_pending (s : State) (v : VerdictUnit) : (s.setVerdict v).pending = s.pending := rfl
@[simp] theorem State.setVerdict_clock (s : State) (v : VerdictUnit) : (s.setVerdict v).clock = s.clock := rfl
@[simp] theorem State.setVerdict_resetAsserted (s : State) (v : VerdictUnit) : (s.setVerdict v).resetAsserted = s.resetAsserted := rfl
@[simp] theorem State.setVerdict_sensePin (s : State) (v : VerdictUnit) : (s.setVerdict v).sensePin = s.sensePin := rfl
@[simp] theorem State.setVerdict_memory (s : State) (v : VerdictUnit) : (s.setVerdict v).memory = s.memory := rfl
@[simp] theorem State.setVerdict_passage (s : State) (v : VerdictUnit) : (s.setVerdict v).passage = s.passage := rfl
@[simp] theorem State.setVerdict_verdict (s : State) (v : VerdictUnit) : (s.setVerdict v).verdict = v := rfl
@[simp] theorem State.setVerdict_hold (s : State) (v : VerdictUnit) : (s.setVerdict v).hold = s.hold := rfl
@[simp] theorem State.setVerdict_tracker (s : State) (v : VerdictUnit) : (s.setVerdict v).tracker = s.tracker := rfl
@[simp] theorem State.setVerdict_berth (s : State) (v : VerdictUnit) : (s.setVerdict v).berth = s.berth := rfl
@[simp] theorem State.setVerdict_brake (s : State) (v : VerdictUnit) : (s.setVerdict v).brake = s.brake := rfl
@[simp] theorem State.setVerdict_line (s : State) (v : VerdictUnit) : (s.setVerdict v).line = s.line := rfl
@[simp] theorem State.setVerdict_ride (s : State) (v : VerdictUnit) : (s.setVerdict v).ride = s.ride := rfl
@[simp] theorem State.setVerdict_directive (s : State) (v : VerdictUnit) : (s.setVerdict v).directive = s.directive := rfl
@[simp] theorem State.setVerdict_report (s : State) (v : VerdictUnit) : (s.setVerdict v).report = s.report := rfl
@[simp] theorem State.setVerdict_loader (s : State) (v : VerdictUnit) : (s.setVerdict v).loader = s.loader := rfl

@[simp] theorem State.setHold_pending (s : State) (v : HoldQueue) : (s.setHold v).pending = s.pending := rfl
@[simp] theorem State.setHold_clock (s : State) (v : HoldQueue) : (s.setHold v).clock = s.clock := rfl
@[simp] theorem State.setHold_resetAsserted (s : State) (v : HoldQueue) : (s.setHold v).resetAsserted = s.resetAsserted := rfl
@[simp] theorem State.setHold_sensePin (s : State) (v : HoldQueue) : (s.setHold v).sensePin = s.sensePin := rfl
@[simp] theorem State.setHold_memory (s : State) (v : HoldQueue) : (s.setHold v).memory = s.memory := rfl
@[simp] theorem State.setHold_passage (s : State) (v : HoldQueue) : (s.setHold v).passage = s.passage := rfl
@[simp] theorem State.setHold_verdict (s : State) (v : HoldQueue) : (s.setHold v).verdict = s.verdict := rfl
@[simp] theorem State.setHold_hold (s : State) (v : HoldQueue) : (s.setHold v).hold = v := rfl
@[simp] theorem State.setHold_tracker (s : State) (v : HoldQueue) : (s.setHold v).tracker = s.tracker := rfl
@[simp] theorem State.setHold_berth (s : State) (v : HoldQueue) : (s.setHold v).berth = s.berth := rfl
@[simp] theorem State.setHold_brake (s : State) (v : HoldQueue) : (s.setHold v).brake = s.brake := rfl
@[simp] theorem State.setHold_line (s : State) (v : HoldQueue) : (s.setHold v).line = s.line := rfl
@[simp] theorem State.setHold_ride (s : State) (v : HoldQueue) : (s.setHold v).ride = s.ride := rfl
@[simp] theorem State.setHold_directive (s : State) (v : HoldQueue) : (s.setHold v).directive = s.directive := rfl
@[simp] theorem State.setHold_report (s : State) (v : HoldQueue) : (s.setHold v).report = s.report := rfl
@[simp] theorem State.setHold_loader (s : State) (v : HoldQueue) : (s.setHold v).loader = s.loader := rfl

@[simp] theorem State.setTracker_pending (s : State) (v : RideTracker) : (s.setTracker v).pending = s.pending := rfl
@[simp] theorem State.setTracker_clock (s : State) (v : RideTracker) : (s.setTracker v).clock = s.clock := rfl
@[simp] theorem State.setTracker_resetAsserted (s : State) (v : RideTracker) : (s.setTracker v).resetAsserted = s.resetAsserted := rfl
@[simp] theorem State.setTracker_sensePin (s : State) (v : RideTracker) : (s.setTracker v).sensePin = s.sensePin := rfl
@[simp] theorem State.setTracker_memory (s : State) (v : RideTracker) : (s.setTracker v).memory = s.memory := rfl
@[simp] theorem State.setTracker_passage (s : State) (v : RideTracker) : (s.setTracker v).passage = s.passage := rfl
@[simp] theorem State.setTracker_verdict (s : State) (v : RideTracker) : (s.setTracker v).verdict = s.verdict := rfl
@[simp] theorem State.setTracker_hold (s : State) (v : RideTracker) : (s.setTracker v).hold = s.hold := rfl
@[simp] theorem State.setTracker_tracker (s : State) (v : RideTracker) : (s.setTracker v).tracker = v := rfl
@[simp] theorem State.setTracker_berth (s : State) (v : RideTracker) : (s.setTracker v).berth = s.berth := rfl
@[simp] theorem State.setTracker_brake (s : State) (v : RideTracker) : (s.setTracker v).brake = s.brake := rfl
@[simp] theorem State.setTracker_line (s : State) (v : RideTracker) : (s.setTracker v).line = s.line := rfl
@[simp] theorem State.setTracker_ride (s : State) (v : RideTracker) : (s.setTracker v).ride = s.ride := rfl
@[simp] theorem State.setTracker_directive (s : State) (v : RideTracker) : (s.setTracker v).directive = s.directive := rfl
@[simp] theorem State.setTracker_report (s : State) (v : RideTracker) : (s.setTracker v).report = s.report := rfl
@[simp] theorem State.setTracker_loader (s : State) (v : RideTracker) : (s.setTracker v).loader = s.loader := rfl

@[simp] theorem State.setBerth_pending (s : State) (v : BerthUnit) : (s.setBerth v).pending = s.pending := rfl
@[simp] theorem State.setBerth_clock (s : State) (v : BerthUnit) : (s.setBerth v).clock = s.clock := rfl
@[simp] theorem State.setBerth_resetAsserted (s : State) (v : BerthUnit) : (s.setBerth v).resetAsserted = s.resetAsserted := rfl
@[simp] theorem State.setBerth_sensePin (s : State) (v : BerthUnit) : (s.setBerth v).sensePin = s.sensePin := rfl
@[simp] theorem State.setBerth_memory (s : State) (v : BerthUnit) : (s.setBerth v).memory = s.memory := rfl
@[simp] theorem State.setBerth_passage (s : State) (v : BerthUnit) : (s.setBerth v).passage = s.passage := rfl
@[simp] theorem State.setBerth_verdict (s : State) (v : BerthUnit) : (s.setBerth v).verdict = s.verdict := rfl
@[simp] theorem State.setBerth_hold (s : State) (v : BerthUnit) : (s.setBerth v).hold = s.hold := rfl
@[simp] theorem State.setBerth_tracker (s : State) (v : BerthUnit) : (s.setBerth v).tracker = s.tracker := rfl
@[simp] theorem State.setBerth_berth (s : State) (v : BerthUnit) : (s.setBerth v).berth = v := rfl
@[simp] theorem State.setBerth_brake (s : State) (v : BerthUnit) : (s.setBerth v).brake = s.brake := rfl
@[simp] theorem State.setBerth_line (s : State) (v : BerthUnit) : (s.setBerth v).line = s.line := rfl
@[simp] theorem State.setBerth_ride (s : State) (v : BerthUnit) : (s.setBerth v).ride = s.ride := rfl
@[simp] theorem State.setBerth_directive (s : State) (v : BerthUnit) : (s.setBerth v).directive = s.directive := rfl
@[simp] theorem State.setBerth_report (s : State) (v : BerthUnit) : (s.setBerth v).report = s.report := rfl
@[simp] theorem State.setBerth_loader (s : State) (v : BerthUnit) : (s.setBerth v).loader = s.loader := rfl

@[simp] theorem State.setBrake_pending (s : State) (v : BrakeUnit) : (s.setBrake v).pending = s.pending := rfl
@[simp] theorem State.setBrake_clock (s : State) (v : BrakeUnit) : (s.setBrake v).clock = s.clock := rfl
@[simp] theorem State.setBrake_resetAsserted (s : State) (v : BrakeUnit) : (s.setBrake v).resetAsserted = s.resetAsserted := rfl
@[simp] theorem State.setBrake_sensePin (s : State) (v : BrakeUnit) : (s.setBrake v).sensePin = s.sensePin := rfl
@[simp] theorem State.setBrake_memory (s : State) (v : BrakeUnit) : (s.setBrake v).memory = s.memory := rfl
@[simp] theorem State.setBrake_passage (s : State) (v : BrakeUnit) : (s.setBrake v).passage = s.passage := rfl
@[simp] theorem State.setBrake_verdict (s : State) (v : BrakeUnit) : (s.setBrake v).verdict = s.verdict := rfl
@[simp] theorem State.setBrake_hold (s : State) (v : BrakeUnit) : (s.setBrake v).hold = s.hold := rfl
@[simp] theorem State.setBrake_tracker (s : State) (v : BrakeUnit) : (s.setBrake v).tracker = s.tracker := rfl
@[simp] theorem State.setBrake_berth (s : State) (v : BrakeUnit) : (s.setBrake v).berth = s.berth := rfl
@[simp] theorem State.setBrake_brake (s : State) (v : BrakeUnit) : (s.setBrake v).brake = v := rfl
@[simp] theorem State.setBrake_line (s : State) (v : BrakeUnit) : (s.setBrake v).line = s.line := rfl
@[simp] theorem State.setBrake_ride (s : State) (v : BrakeUnit) : (s.setBrake v).ride = s.ride := rfl
@[simp] theorem State.setBrake_directive (s : State) (v : BrakeUnit) : (s.setBrake v).directive = s.directive := rfl
@[simp] theorem State.setBrake_report (s : State) (v : BrakeUnit) : (s.setBrake v).report = s.report := rfl
@[simp] theorem State.setBrake_loader (s : State) (v : BrakeUnit) : (s.setBrake v).loader = s.loader := rfl

@[simp] theorem State.setLine_pending (s : State) (v : LineController) : (s.setLine v).pending = s.pending := rfl
@[simp] theorem State.setLine_clock (s : State) (v : LineController) : (s.setLine v).clock = s.clock := rfl
@[simp] theorem State.setLine_resetAsserted (s : State) (v : LineController) : (s.setLine v).resetAsserted = s.resetAsserted := rfl
@[simp] theorem State.setLine_sensePin (s : State) (v : LineController) : (s.setLine v).sensePin = s.sensePin := rfl
@[simp] theorem State.setLine_memory (s : State) (v : LineController) : (s.setLine v).memory = s.memory := rfl
@[simp] theorem State.setLine_passage (s : State) (v : LineController) : (s.setLine v).passage = s.passage := rfl
@[simp] theorem State.setLine_verdict (s : State) (v : LineController) : (s.setLine v).verdict = s.verdict := rfl
@[simp] theorem State.setLine_hold (s : State) (v : LineController) : (s.setLine v).hold = s.hold := rfl
@[simp] theorem State.setLine_tracker (s : State) (v : LineController) : (s.setLine v).tracker = s.tracker := rfl
@[simp] theorem State.setLine_berth (s : State) (v : LineController) : (s.setLine v).berth = s.berth := rfl
@[simp] theorem State.setLine_brake (s : State) (v : LineController) : (s.setLine v).brake = s.brake := rfl
@[simp] theorem State.setLine_line (s : State) (v : LineController) : (s.setLine v).line = v := rfl
@[simp] theorem State.setLine_ride (s : State) (v : LineController) : (s.setLine v).ride = s.ride := rfl
@[simp] theorem State.setLine_directive (s : State) (v : LineController) : (s.setLine v).directive = s.directive := rfl
@[simp] theorem State.setLine_report (s : State) (v : LineController) : (s.setLine v).report = s.report := rfl
@[simp] theorem State.setLine_loader (s : State) (v : LineController) : (s.setLine v).loader = s.loader := rfl

@[simp] theorem State.setRide_pending (s : State) (v : RideUnit) : (s.setRide v).pending = s.pending := rfl
@[simp] theorem State.setRide_clock (s : State) (v : RideUnit) : (s.setRide v).clock = s.clock := rfl
@[simp] theorem State.setRide_resetAsserted (s : State) (v : RideUnit) : (s.setRide v).resetAsserted = s.resetAsserted := rfl
@[simp] theorem State.setRide_sensePin (s : State) (v : RideUnit) : (s.setRide v).sensePin = s.sensePin := rfl
@[simp] theorem State.setRide_memory (s : State) (v : RideUnit) : (s.setRide v).memory = s.memory := rfl
@[simp] theorem State.setRide_passage (s : State) (v : RideUnit) : (s.setRide v).passage = s.passage := rfl
@[simp] theorem State.setRide_verdict (s : State) (v : RideUnit) : (s.setRide v).verdict = s.verdict := rfl
@[simp] theorem State.setRide_hold (s : State) (v : RideUnit) : (s.setRide v).hold = s.hold := rfl
@[simp] theorem State.setRide_tracker (s : State) (v : RideUnit) : (s.setRide v).tracker = s.tracker := rfl
@[simp] theorem State.setRide_berth (s : State) (v : RideUnit) : (s.setRide v).berth = s.berth := rfl
@[simp] theorem State.setRide_brake (s : State) (v : RideUnit) : (s.setRide v).brake = s.brake := rfl
@[simp] theorem State.setRide_line (s : State) (v : RideUnit) : (s.setRide v).line = s.line := rfl
@[simp] theorem State.setRide_ride (s : State) (v : RideUnit) : (s.setRide v).ride = v := rfl
@[simp] theorem State.setRide_directive (s : State) (v : RideUnit) : (s.setRide v).directive = s.directive := rfl
@[simp] theorem State.setRide_report (s : State) (v : RideUnit) : (s.setRide v).report = s.report := rfl
@[simp] theorem State.setRide_loader (s : State) (v : RideUnit) : (s.setRide v).loader = s.loader := rfl

@[simp] theorem State.setDirective_pending (s : State) (v : DirectiveUnit) : (s.setDirective v).pending = s.pending := rfl
@[simp] theorem State.setDirective_clock (s : State) (v : DirectiveUnit) : (s.setDirective v).clock = s.clock := rfl
@[simp] theorem State.setDirective_resetAsserted (s : State) (v : DirectiveUnit) : (s.setDirective v).resetAsserted = s.resetAsserted := rfl
@[simp] theorem State.setDirective_sensePin (s : State) (v : DirectiveUnit) : (s.setDirective v).sensePin = s.sensePin := rfl
@[simp] theorem State.setDirective_memory (s : State) (v : DirectiveUnit) : (s.setDirective v).memory = s.memory := rfl
@[simp] theorem State.setDirective_passage (s : State) (v : DirectiveUnit) : (s.setDirective v).passage = s.passage := rfl
@[simp] theorem State.setDirective_verdict (s : State) (v : DirectiveUnit) : (s.setDirective v).verdict = s.verdict := rfl
@[simp] theorem State.setDirective_hold (s : State) (v : DirectiveUnit) : (s.setDirective v).hold = s.hold := rfl
@[simp] theorem State.setDirective_tracker (s : State) (v : DirectiveUnit) : (s.setDirective v).tracker = s.tracker := rfl
@[simp] theorem State.setDirective_berth (s : State) (v : DirectiveUnit) : (s.setDirective v).berth = s.berth := rfl
@[simp] theorem State.setDirective_brake (s : State) (v : DirectiveUnit) : (s.setDirective v).brake = s.brake := rfl
@[simp] theorem State.setDirective_line (s : State) (v : DirectiveUnit) : (s.setDirective v).line = s.line := rfl
@[simp] theorem State.setDirective_ride (s : State) (v : DirectiveUnit) : (s.setDirective v).ride = s.ride := rfl
@[simp] theorem State.setDirective_directive (s : State) (v : DirectiveUnit) : (s.setDirective v).directive = v := rfl
@[simp] theorem State.setDirective_report (s : State) (v : DirectiveUnit) : (s.setDirective v).report = s.report := rfl
@[simp] theorem State.setDirective_loader (s : State) (v : DirectiveUnit) : (s.setDirective v).loader = s.loader := rfl

@[simp] theorem State.setReport_pending (s : State) (v : ReportWriter) : (s.setReport v).pending = s.pending := rfl
@[simp] theorem State.setReport_clock (s : State) (v : ReportWriter) : (s.setReport v).clock = s.clock := rfl
@[simp] theorem State.setReport_resetAsserted (s : State) (v : ReportWriter) : (s.setReport v).resetAsserted = s.resetAsserted := rfl
@[simp] theorem State.setReport_sensePin (s : State) (v : ReportWriter) : (s.setReport v).sensePin = s.sensePin := rfl
@[simp] theorem State.setReport_memory (s : State) (v : ReportWriter) : (s.setReport v).memory = s.memory := rfl
@[simp] theorem State.setReport_passage (s : State) (v : ReportWriter) : (s.setReport v).passage = s.passage := rfl
@[simp] theorem State.setReport_verdict (s : State) (v : ReportWriter) : (s.setReport v).verdict = s.verdict := rfl
@[simp] theorem State.setReport_hold (s : State) (v : ReportWriter) : (s.setReport v).hold = s.hold := rfl
@[simp] theorem State.setReport_tracker (s : State) (v : ReportWriter) : (s.setReport v).tracker = s.tracker := rfl
@[simp] theorem State.setReport_berth (s : State) (v : ReportWriter) : (s.setReport v).berth = s.berth := rfl
@[simp] theorem State.setReport_brake (s : State) (v : ReportWriter) : (s.setReport v).brake = s.brake := rfl
@[simp] theorem State.setReport_line (s : State) (v : ReportWriter) : (s.setReport v).line = s.line := rfl
@[simp] theorem State.setReport_ride (s : State) (v : ReportWriter) : (s.setReport v).ride = s.ride := rfl
@[simp] theorem State.setReport_directive (s : State) (v : ReportWriter) : (s.setReport v).directive = s.directive := rfl
@[simp] theorem State.setReport_report (s : State) (v : ReportWriter) : (s.setReport v).report = v := rfl
@[simp] theorem State.setReport_loader (s : State) (v : ReportWriter) : (s.setReport v).loader = s.loader := rfl

@[simp] theorem State.setLoader_pending (s : State) (v : StoreLoader) : (s.setLoader v).pending = s.pending := rfl
@[simp] theorem State.setLoader_clock (s : State) (v : StoreLoader) : (s.setLoader v).clock = s.clock := rfl
@[simp] theorem State.setLoader_resetAsserted (s : State) (v : StoreLoader) : (s.setLoader v).resetAsserted = s.resetAsserted := rfl
@[simp] theorem State.setLoader_sensePin (s : State) (v : StoreLoader) : (s.setLoader v).sensePin = s.sensePin := rfl
@[simp] theorem State.setLoader_memory (s : State) (v : StoreLoader) : (s.setLoader v).memory = s.memory := rfl
@[simp] theorem State.setLoader_passage (s : State) (v : StoreLoader) : (s.setLoader v).passage = s.passage := rfl
@[simp] theorem State.setLoader_verdict (s : State) (v : StoreLoader) : (s.setLoader v).verdict = s.verdict := rfl
@[simp] theorem State.setLoader_hold (s : State) (v : StoreLoader) : (s.setLoader v).hold = s.hold := rfl
@[simp] theorem State.setLoader_tracker (s : State) (v : StoreLoader) : (s.setLoader v).tracker = s.tracker := rfl
@[simp] theorem State.setLoader_berth (s : State) (v : StoreLoader) : (s.setLoader v).berth = s.berth := rfl
@[simp] theorem State.setLoader_brake (s : State) (v : StoreLoader) : (s.setLoader v).brake = s.brake := rfl
@[simp] theorem State.setLoader_line (s : State) (v : StoreLoader) : (s.setLoader v).line = s.line := rfl
@[simp] theorem State.setLoader_ride (s : State) (v : StoreLoader) : (s.setLoader v).ride = s.ride := rfl
@[simp] theorem State.setLoader_directive (s : State) (v : StoreLoader) : (s.setLoader v).directive = s.directive := rfl
@[simp] theorem State.setLoader_report (s : State) (v : StoreLoader) : (s.setLoader v).report = s.report := rfl
@[simp] theorem State.setLoader_loader (s : State) (v : StoreLoader) : (s.setLoader v).loader = v := rfl

end Sys2Proof.Machine
end

