-- ==== Sys2Proof/Laws/Frames.lean ====
section
/-!
SUPPORT. For each shared operation, the parts of the state that it may change (`Keeps`): every other part is as before. The
operations stand in the order of the files that define them.
-/

namespace Sys2Proof.Machine

set_option Elab.async false

/-! ## Keeps -/

theorem Keeps.refl (P : List Part) (s : State) : Keeps P s s := by
  intro p _
  cases p <;> rfl

theorem Part.same_trans {p : Part} {s t u : State} (h : p.same s t) (k : p.same t u) : p.same s u := by
  cases p <;> exact Eq.trans h k

/-- A change within `P` followed by one within a part of `P` is a change within `P`. -/
theorem Keeps.next {P Q : List Part} {s t u : State} (h : Keeps P s t) (k : Keeps Q t u)
    (sub : Q ⊆ P := by decide) : Keeps P s u :=
  fun p hp => Part.same_trans (h p hp) (k p fun hq => hp (sub hq))

theorem Keeps.mono {P Q : List Part} {s t : State} (h : Keeps Q s t) (sub : Q ⊆ P := by decide) : Keeps P s t :=
  fun p hp => h p fun hq => hp (sub hq)

/-! ## Setters -/

theorem setClock_keeps (s : State) (v : Nat) : Keeps [.clock] s (s.setClock v) := by
  intro p hp
  cases p <;> first | rfl | exact absurd (by decide) hp

theorem setResetAsserted_keeps (s : State) (v : Bool) : Keeps [.resetAsserted] s (s.setResetAsserted v) := by
  intro p hp
  cases p <;> first | rfl | exact absurd (by decide) hp

theorem setSensePin_keeps (s : State) (v : Bool) : Keeps [.sensePin] s (s.setSensePin v) := by
  intro p hp
  cases p <;> first | rfl | exact absurd (by decide) hp

theorem setMemory_keeps (s : State) (v : Memory) : Keeps [.memory] s (s.setMemory v) := by
  intro p hp
  cases p <;> first | rfl | exact absurd (by decide) hp

theorem setPassage_keeps (s : State) (v : PassageUnit) : Keeps [.passage] s (s.setPassage v) := by
  intro p hp
  cases p <;> first | rfl | exact absurd (by decide) hp

theorem setVerdict_keeps (s : State) (v : VerdictUnit) : Keeps [.verdict] s (s.setVerdict v) := by
  intro p hp
  cases p <;> first | rfl | exact absurd (by decide) hp

theorem setHold_keeps (s : State) (v : HoldQueue) : Keeps [.hold] s (s.setHold v) := by
  intro p hp
  cases p <;> first | rfl | exact absurd (by decide) hp

theorem setTracker_keeps (s : State) (v : RideTracker) : Keeps [.tracker] s (s.setTracker v) := by
  intro p hp
  cases p <;> first | rfl | exact absurd (by decide) hp

theorem setBerth_keeps (s : State) (v : BerthUnit) : Keeps [.berth] s (s.setBerth v) := by
  intro p hp
  cases p <;> first | rfl | exact absurd (by decide) hp

theorem setBrake_keeps (s : State) (v : BrakeUnit) : Keeps [.brake] s (s.setBrake v) := by
  intro p hp
  cases p <;> first | rfl | exact absurd (by decide) hp

theorem setLine_keeps (s : State) (v : LineController) : Keeps [.line] s (s.setLine v) := by
  intro p hp
  cases p <;> first | rfl | exact absurd (by decide) hp

theorem setRide_keeps (s : State) (v : RideUnit) : Keeps [.ride] s (s.setRide v) := by
  intro p hp
  cases p <;> first | rfl | exact absurd (by decide) hp

theorem setDirective_keeps (s : State) (v : DirectiveUnit) : Keeps [.directive] s (s.setDirective v) := by
  intro p hp
  cases p <;> first | rfl | exact absurd (by decide) hp

theorem setReport_keeps (s : State) (v : ReportWriter) : Keeps [.report] s (s.setReport v) := by
  intro p hp
  cases p <;> first | rfl | exact absurd (by decide) hp

theorem setLoader_keeps (s : State) (v : StoreLoader) : Keeps [.loader] s (s.setLoader v) := by
  intro p hp
  cases p <;> first | rfl | exact absurd (by decide) hp

/-- A fold of changes within `P` is a change within `P`. -/
theorem eachOf_keeps {α : Type} {P : List Part} {f : α → State → State} (h : ∀ x s, Keeps P s (f x s)) (xs : List α)
    (s : State) : Keeps P s (eachOf f xs s) := by
  induction xs generalizing s with
  | nil => exact Keeps.refl P s
  | cons x xs ih => exact (h x s).next (ih _) (List.Subset.refl P)

/-! ## Ops.lean -/

theorem storeShadow_keeps (s : State) (w : WordRef) (v : Nat) : Keeps [.verdict] s (s.storeShadow w v) := by
  unfold State.storeShadow
  split
  · exact setVerdict_keeps _ _
  · exact Keeps.refl _ _

theorem setBoat_keeps (s : State) (b : Nat) (f : BoatRecord → BoatRecord) : Keeps [.tracker] s (s.setBoat b f) := by
  unfold State.setBoat
  split
  · exact Keeps.refl _ _
  · exact setTracker_keeps _ _

theorem setEye_keeps (s : State) (e : Nat) (f : EyeLive → EyeLive) : Keeps [.tracker] s (s.setEye e f) :=
  setTracker_keeps _ _

theorem setSegment_keeps (s : State) (g : Nat) (f : SegmentLive → SegmentLive) :
    Keeps [.tracker] s (s.setSegment g f) := setTracker_keeps _ _

theorem dropReservations_keeps (s : State) (p : Reservation → Bool) : Keeps [.tracker] s (s.dropReservations p) :=
  setTracker_keeps _ _

theorem addReservation_keeps (s : State) (r : Reservation) : Keeps [.tracker] s (s.addReservation r) :=
  setTracker_keeps _ _

theorem renumberFrom_keeps (k : Nat) (q : List Nat) (s : State) : Keeps [.tracker] s (renumberFrom k q s) := by
  induction q generalizing k s with
  | nil => exact Keeps.refl _ _
  | cons b bs ih => exact (setBoat_keeps s b _).next (ih _ _)

theorem setQueue_keeps (s : State) (g : Nat) (q : List Nat) : Keeps [.tracker] s (s.setQueue g q) :=
  (setSegment_keeps s g _).next (renumberFrom_keeps 1 q _)

theorem leaveQueue_keeps (s : State) (b : Nat) : Keeps [.tracker] s (s.leaveQueue b) := by
  unfold State.leaveQueue
  split
  · exact setQueue_keeps _ _ _
  · exact Keeps.refl _ _

theorem arrive_keeps (s : State) (b g : Nat) : Keeps [.tracker] s (s.arrive b g) := setBoat_keeps _ _ _

theorem callReport_keeps (s : State) (r : Report) : Keeps [.passage, .report] s (s.callReport r) := by
  unfold State.callReport
  dsimp only
  split
  · split
    · exact (setReport_keeps _ _).mono
    · exact ((setReport_keeps s _).mono (P := [.passage, .report])).next (setPassage_keeps _ _)
  · exact Keeps.refl _ _

theorem decideMotion_keeps (s : State) (w : WordRef) (v : Nat) (o : MotionOrigin) :
    Keeps [.passage] s (s.decideMotion w v o) := setPassage_keeps _ _

theorem askImage_keeps (s : State) (i : ImageItem) (c : Bool) : Keeps [.passage] s (s.askImage i c) := by
  unfold State.askImage
  split
  · exact Keeps.refl _ _
  · exact setPassage_keeps _ _

theorem respondDone_keeps (s : State) (d : List Word) : Keeps [.passage] s (s.respondDone d) := setPassage_keeps _ _

theorem respondError_keeps (s : State) (a : Access) : Keeps [.passage] s (s.respondError a) := setPassage_keeps _ _

theorem answer_keeps (s : State) (tag : BitVec 16) (k : Nat) (o : ResultOutcome) (r : Option Reason) (d : List Nat) :
    Keeps [.directive] s (s.answer tag k o r d) := setDirective_keeps _ _

theorem setNode_keeps (s : State) (p : Nat) (f : NodeEntry → NodeEntry) : Keeps [.line] s (s.setNode p f) := by
  unfold State.setNode
  split
  · exact Keeps.refl _ _
  · exact setLine_keeps _ _

theorem setRunout_keeps (s : State) (r : Nat) (f : RunoutLive → RunoutLive) : Keeps [.brake] s (s.setRunout r f) :=
  setBrake_keeps _ _

theorem setConveyor_keeps (s : State) (c : Nat) (f : ConveyorLive → ConveyorLive) :
    Keeps [.brake] s (s.setConveyor c f) := setBrake_keeps _ _

theorem setBerthLive_keeps (s : State) (i : Nat) (f : BerthLive → BerthLive) :
    Keeps [.berth] s (s.setBerthLive i f) := setBerth_keeps _ _

/-! ## Images.lean -/

theorem askChanged_keeps (s0 s : State) : Keeps [.passage] s (askChanged s0 s) :=
  eachOf_keeps (fun i s => askImage_keeps s i false) _ _

theorem finish_keeps (s0 s : State) : Keeps [.passage] s (finish s0 s) := by
  unfold finish
  have h := askChanged_keeps s0 s
  dsimp only
  split
  · exact h.next (setPassage_keeps _ _)
  · exact h

/-- An event changes what its effect changes, and the UPKEEP class. -/
theorem event_keeps {P : List Part} {s t : State} {enabled : Bool} {effect : State → State}
    (h : Keeps P s (effect s)) (hp : Part.passage ∈ P) (e : event s enabled effect = .next t) : Keeps P s t := by
  unfold event at e
  split at e
  · cases e
    exact h.next (finish_keeps _ _) (List.cons_subset.mpr ⟨hp, List.nil_subset P⟩)
  · cases e
    exact Keeps.refl _ _

/-! ## Brake.lean -/

theorem liftFin_keeps (r floor : Nat) (s : State) : Keeps [.passage, .brake, .report] s (liftFin r floor s) := by
  unfold liftFin
  split
  · exact Keeps.refl _ _
  · split
    · exact (((decideMotion_keeps s _ _ _).mono (P := [.passage, .brake, .report])).next
        (setRunout_keeps _ _ _)).next (callReport_keeps _ _)
    · exact Keeps.refl _ _

theorem refreshSteps_keeps (g : Nat) (s : State) : Keeps [.tracker] s (refreshSteps g s) :=
  eachOf_keeps (fun _ _ => setBoat_keeps _ _ _) _ _

theorem recomputeFloor_keeps (r : Nat) (s : State) :
    Keeps [.passage, .tracker, .brake, .report] s (recomputeFloor r s) := by
  unfold recomputeFloor
  split
  · exact Keeps.refl _ _
  · next g _ =>
    have h : Keeps [.passage, .tracker, .brake, .report] s (refreshSteps g s) := (refreshSteps_keeps g s).mono
    dsimp only
    split
    · exact h
    · exact (h.next (setRunout_keeps _ _ _)).next (liftFin_keeps _ _ _)

theorem reseatWork_keeps (g : Nat) (s : State) :
    Keeps [.passage, .tracker, .brake, .report] s (reseatWork g s) :=
  eachOf_keeps (fun r s => by
    split
    · exact recomputeFloor_keeps _ _
    · exact Keeps.refl _ _) _ _

theorem takeProfiles_keeps (s : State) : Keeps [.passage, .tracker, .brake, .report] s (takeProfiles s) := by
  unfold takeProfiles
  exact ((((setBrake_keeps s _).mono (P := [.passage, .tracker, .brake, .report])).next
    (eachOf_keeps (fun r s => recomputeFloor_keeps r s) indices4 _)).next (callReport_keeps _ _)).next
    (askImage_keeps _ _ _)

theorem updateFinTimer_keeps (r : Nat) (s : State) : Keeps [.brake] s (updateFinTimer r s) := setRunout_keeps _ _ _

theorem setFeedback_keeps (r : Nat) (f : FinFeedback) (s : State) : Keeps [.brake] s (setFeedback r f s) := by
  unfold setFeedback
  split
  · exact (setRunout_keeps s r _).next (updateFinTimer_keeps _ _)
  · exact Keeps.refl _ _

theorem stallStop_keeps (c : Nat) (s : State) : Keeps [.passage, .brake, .report] s (stallStop c s) := by
  unfold stallStop
  split
  · exact Keeps.refl _ _
  · split
    · exact (((decideMotion_keeps s _ _ _).mono (P := [.passage, .brake, .report])).next
        (setConveyor_keeps _ _ _)).next (callReport_keeps _ _)
    · exact Keeps.refl _ _

theorem recomputeStall_keeps (c : Nat) (s : State) : Keeps [.passage, .brake, .report] s (recomputeStall c s) := by
  unfold recomputeStall
  split
  · exact Keeps.refl _ _
  · have h : Keeps [.passage, .brake, .report] s
        (s.setConveyor c fun x => { x with stalled := s.stallCondition c }) := (setConveyor_keeps _ _ _).mono
    dsimp only
    split
    · exact h.next (stallStop_keeps _ _)
    · exact h

theorem speedShadowChanged_keeps (c : Nat) (s : State) :
    Keeps [.passage, .brake, .report] s (speedShadowChanged c s) := by
  unfold speedShadowChanged
  split
  · exact stallStop_keeps _ _
  · exact Keeps.refl _ _

theorem shadowWork_keeps (s0 s : State) : Keeps [.passage, .brake, .report] s (shadowWork s0 s) := by
  unfold shadowWork
  refine (eachOf_keeps (P := [.passage, .brake, .report]) (fun r s => ?_) indices4 s).next
    (eachOf_keeps (P := [.passage, .brake, .report]) (fun c s => ?_) indices4 _)
  · split
    · exact Keeps.refl _ _
    · exact (updateFinTimer_keeps _ _).mono
  · split
    · exact Keeps.refl _ _
    · exact speedShadowChanged_keeps _ _

theorem brakeWork_keeps (s0 s : State) : Keeps [.passage, .tracker, .brake, .report] s (brakeWork s0 s) := by
  unfold brakeWork
  have h1 : Keeps [.passage, .tracker, .brake, .report] s
      (eachOf (fun r t => if runoutTouched s0 s r then recomputeFloor r t else t) indices4 s) :=
    eachOf_keeps (fun r t => by
      split
      · exact recomputeFloor_keeps _ _
      · exact Keeps.refl _ _) _ _
  have h2 := (h1.next (shadowWork_keeps s0 _)).next
    (eachOf_keeps (fun c s => recomputeStall_keeps c s) indices4 _)
  dsimp only
  split
  · exact h2.next (takeProfiles_keeps _)
  · exact h2

theorem pacerWork_keeps (s0 s : State) : Keeps [.berth] s (pacerWork s0 s) := by
  unfold pacerWork
  split
  · exact Keeps.refl _ _
  · exact setBerth_keeps _ _

theorem copyPaceBuffer_keeps (s : State) : Keeps [.berth] s (copyPaceBuffer s) := by
  unfold copyPaceBuffer
  split
  · exact Keeps.refl _ _
  · split
    · exact Keeps.refl _ _
    · exact setBerth_keeps _ _

/-! ## Hold.lean -/

theorem reportHoldEnd_keeps (h : HeldEntry) (o : HoldOutcome) (r : Option Reason) (s : State) :
    Keeps [.passage, .report] s (reportHoldEnd h o r s) := callReport_keeps _ _

theorem setEntries_keeps (s : State) (es : List HeldEntry) : Keeps [.passage, .hold] s (s.setEntries es) := by
  unfold State.setEntries
  split
  · exact Keeps.refl _ _
  · exact ((setHold_keeps s _).mono (P := [.passage, .hold])).next (askImage_keeps _ _ _)

theorem removeHeld_keeps (s : State) (w : WordRef) : Keeps [.passage, .hold] s (s.removeHeld w) := setEntries_keeps _ _

theorem endHeld_keeps (h : HeldEntry) (o : HoldOutcome) (r : Option Reason) (s : State) :
    Keeps [.passage, .hold, .report] s (endHeld h o r s) :=
  ((reportHoldEnd_keeps h o r s).mono (P := [.passage, .hold, .report])).next (removeHeld_keeps _ _)

theorem unitWork_keeps (s0 s : State) : Keeps [.passage, .tracker, .berth, .brake, .report] s (unitWork s0 s) :=
  (((brakeWork_keeps s0 s).mono (P := [.passage, .tracker, .berth, .brake, .report])).next
    (pacerWork_keeps _ _)).next (askChanged_keeps _ _)

theorem perform_keeps (h : HeldEntry) (v : Nat) (amended : Bool) (r : Option Reservation) (s : State) :
    Keeps modelParts s (perform h v amended r s) := by
  unfold perform
  have h1 : Keeps modelParts s (s.removeHeld h.word) := (removeHeld_keeps _ _).mono
  cases r with
  | none => exact h1.next (decideMotion_keeps _ _ _ _)
  | some r =>
    exact ((h1.next (addReservation_keeps _ r)).next (unitWork_keeps _ _)).next (decideMotion_keeps _ _ _ _)

theorem examineEntry_keeps (h : HeldEntry) (s : State) : Keeps modelParts s (examineEntry h s) := by
  unfold examineEntry
  split
  · exact perform_keeps _ _ _ _ _
  · exact perform_keeps _ _ _ _ _
  · exact (setEntries_keeps _ _).mono
  · exact (endHeld_keeps _ _ _ _).mono

theorem examine_keeps (s : State) : Keeps modelParts s (examine s) :=
  eachOf_keeps (fun h s => examineEntry_keeps h s) _ _

theorem restartDwell_keeps (g : Nat) (s : State) : Keeps [.tracker] s (restartDwell g s) :=
  eachOf_keeps (fun _ _ => setBoat_keeps _ _ _) _ _

theorem dwellWork_keeps (s0 s : State) : Keeps [.tracker] s (dwellWork s0 s) :=
  eachOf_keeps (fun g s => by
    split
    · exact restartDwell_keeps _ _
    · exact Keeps.refl _ _) _ _

theorem handOn_keeps (s0 s : State) : Keeps modelParts s (handOn s0 s) := by
  unfold handOn
  have h : Keeps modelParts s (unitWork s0 (dwellWork s0 s)) :=
    ((dwellWork_keeps s0 s).mono).next (unitWork_keeps _ _)
  dsimp only
  split
  · exact h.next (examine_keeps _)
  · exact h

theorem withdrawPerformance_keeps (b : Nat) (s : State) :
    Keeps [.passage, .report] s (withdrawPerformance b s) := by
  unfold withdrawPerformance
  split
  · exact Keeps.refl _ _
  · have h : Keeps [.passage, .report] s (s.setPassage
        { s.passage with motion := s.passage.motion.filter fun x => !x.performsFor b }) := (setPassage_keeps _ _).mono
    dsimp only
    split
    · exact h.next (reportHoldEnd_keeps _ _ _ _)
    · exact h

theorem purge_keeps (s : State) : Keeps [.passage, .hold, .report] s (purge s) := by
  unfold purge
  exact ((((setPassage_keeps s _).mono (P := [.passage, .hold, .report])).next
    (eachOf_keeps (fun h s => reportHoldEnd_keeps h .purged (some h.reason) s) _ _)).next
    (eachOf_keeps (fun h s => reportHoldEnd_keeps h .purged (some h.reason) s) _ _)).next (setEntries_keeps _ _)

/-! ## Trips.lean -/

theorem faultSegment_keeps (c : Cause) (g : Nat) (s : State) :
    Keeps [.passage, .tracker, .report] s (faultSegment c g s) := by
  unfold faultSegment
  split
  · exact Keeps.refl _ _
  · exact ((setSegment_keeps s g _).mono (P := [.passage, .tracker, .report])).next (callReport_keeps _ _)

theorem faultSegments_keeps (c : Cause) (gs : List Nat) (s : State) :
    Keeps [.passage, .tracker, .report] s (faultSegments c gs s) :=
  eachOf_keeps (fun g s => faultSegment_keeps c g s) _ _

theorem safeWrites_keeps (s : State) : Keeps [.passage] s (safeWrites s) :=
  eachOf_keeps (fun _ _ => decideMotion_keeps _ _ _ _) _ _

theorem initialWrites_keeps (s : State) : Keeps [.passage] s (initialWrites s) :=
  eachOf_keeps (fun _ _ => decideMotion_keeps _ _ _ _) _ _

theorem enterState_keeps (s : State) (r : RideState) : Keeps [.ride] s (s.enterState r) := setRide_keeps _ _

theorem reportState_keeps (r : RideState) (o : Occasion) (s : State) :
    Keeps [.passage, .report] s (reportState r o s) := callReport_keeps _ _

theorem endDrill_keeps (s : State) : Keeps [.ride] s (endDrill s) := setRide_keeps _ _

theorem reportAbort_keeps (d : Drill) (s : State) : Keeps [.passage, .directive, .report] s (reportAbort d s) :=
  ((answer_keeps s _ _ _ _ _).mono (P := [.passage, .directive, .report])).next (callReport_keeps _ _)

theorem reportNode_keeps (p : Nat) (n : NodeState) (s : State) : Keeps [.passage, .report] s (reportNode p n s) :=
  callReport_keeps _ _

theorem returnNode_keeps (p : Nat) (s : State) : Keeps [.passage, .line, .report] s (returnNode p s) := by
  unfold returnNode
  split
  · exact ((setNode_keeps s p _).mono (P := [.passage, .line, .report])).next (reportNode_keeps _ _ _)
  · exact Keeps.refl _ _

theorem returnNodes_keeps (s : State) : Keeps [.passage, .line, .report] s (returnNodes s) :=
  eachOf_keeps (fun p s => returnNode_keeps p s) _ _

theorem abortDrill_keeps (d : Drill) (s : State) :
    Keeps [.passage, .directive, .line, .report] s (abortDrill d s) := by
  unfold abortDrill
  have h : Keeps [.passage, .directive, .line, .report] s (reportAbort d s) := (reportAbort_keeps _ _).mono
  dsimp only
  split
  · exact h.next (returnNodes_keeps _)
  · exact h

/-- What a trip cause reaches: it moves no boat and changes no shadow or floor. -/
theorem tripAction_keeps (c : Cause) (k : DetailKind) (d : Nat) (s : State) :
    Keeps [.passage, .hold, .report, .ride, .directive, .line] s (tripAction c k d s) := by
  unfold tripAction
  have h : Keeps [.passage, .hold, .report, .ride, .directive, .line] s (s.enterState .tripped) :=
    (enterState_keeps _ _).mono
  have h := h.next (setRide_keeps _ { (s.enterState .tripped).ride with trip := .start c k d (s.enterState .tripped).clock })
  have h := (h.next (purge_keeps _)).next (safeWrites_keeps _)
  have h := ((h.next (endDrill_keeps _)).next (callReport_keeps _ (.trip c k d false [c]))).next
    (reportState_keeps s.ride.state .trip _)
  have h := h.next (askImage_keeps _ .ride false)
  dsimp only
  split
  · exact h.next (abortDrill_keeps _ _)
  · exact h

theorem addCause_keeps (c : Cause) (k : DetailKind) (d : Nat) (s : State) :
    Keeps [.passage, .report, .ride] s (addCause c k d s) := by
  unfold addCause
  exact (((setRide_keeps s _).mono (P := [.passage, .report, .ride])).next (callReport_keeps _ _)).next
    (askImage_keeps _ _ _)

theorem raiseCause_keeps (c : Cause) (k : DetailKind) (d : Nat) (s : State) :
    Keeps [.passage, .hold, .report, .ride, .directive, .line] s (raiseCause c k d s) := by
  unfold raiseCause
  split
  · exact tripAction_keeps _ _ _ _
  · exact tripAction_keeps _ _ _ _
  · exact (addCause_keeps _ _ _ _).mono
  · exact Keeps.refl _ _
  · exact Keeps.refl _ _

end Sys2Proof.Machine
end

