-- ==== Sys2Proof/Laws/FramesUnits.lean ====
section
/-!
SUPPORT. The parts that the operations of the Ride Tracker, the Line Controller, the Store Loader, the Directive Unit, the
memory port and the controller port may change, after those of Frames.lean.
-/

namespace Sys2Proof.Machine

set_option Elab.async false

/-! ## Tracking.lean -/

theorem faultEdge_keeps (c : Cause) (e : Nat) (s : State) : Keeps tripParts s (faultEdge c e s) :=
  ((faultSegments_keeps c _ s).mono (P := tripParts)).next (raiseCause_keeps _ _ _ _)

theorem closeGate_keeps (o : MotionOrigin) (g : Nat) (s : State) : Keeps [.passage] s (closeGate o g s) := by
  unfold closeGate
  split
  · exact decideMotion_keeps _ _ _ _
  · exact Keeps.refl _ _

theorem endReservation_keeps (b : Nat) (s : State) :
    Keeps [.passage, .tracker, .report] s (endReservation b s) :=
  ((dropReservations_keeps s _).mono (P := [.passage, .tracker, .report])).next (withdrawPerformance_keeps _ _)

theorem reservationCheck_keeps (e b : Nat) (s : State) : Keeps tripParts s (reservationCheck e b s).2 := by
  unfold reservationCheck
  split
  · split
    · exact (endReservation_keeps _ _).mono
    · exact (((endReservation_keeps b s).mono (P := tripParts)).next (faultSegments_keeps _ _ _)).next
        (raiseCause_keeps _ _ _ _)
  · exact ((faultSegments_keeps _ _ s).mono (P := tripParts)).next (raiseCause_keeps _ _ _ _)

theorem roomCheck_keeps (e : Nat) (s : State) : Keeps tripParts s (roomCheck e s).2 := by
  unfold roomCheck
  split
  · exact ((faultSegments_keeps _ _ s).mono (P := tripParts)).next (raiseCause_keeps _ _ _ _)
  · exact Keeps.refl _ _

theorem stepTwo_keeps (e b : Nat) (s : State) : Keeps tripParts s (stepTwo e b s).2 := by
  unfold stepTwo
  split
  · exact reservationCheck_keeps _ _ _
  · exact roomCheck_keeps _ _

theorem dwellCheck_keeps (x b : Nat) (s : State) : Keeps tripParts s (dwellCheck x b s) := by
  unfold dwellCheck
  split
  · exact ((faultSegments_keeps _ _ s).mono (P := tripParts)).next (raiseCause_keeps _ _ _ _)
  · exact Keeps.refl _ _

theorem moveBoat_keeps (e b : Nat) (s : State) : Keeps [.tracker] s (moveBoat e b s) := by
  unfold moveBoat
  exact (((setQueue_keeps s _ _).next (arrive_keeps _ _ _)).next (setBoat_keeps _ _ _)).next (setQueue_keeps _ _ _)

theorem tagCheck_keeps (e b tag : Nat) (s : State) :
    Keeps [.passage, .tracker, .report] s (tagCheck e b tag s) := by
  unfold tagCheck
  split
  · exact Keeps.refl _ _
  · have h : Keeps [.passage, .tracker, .report] s (s.setBoat b fun r => { r with identityDoubt := true }) :=
      (setBoat_keeps _ _ _).mono
    dsimp only
    split
    · exact (h.next (setBoat_keeps _ _ _)).next (callReport_keeps _ _)
    · exact h.next (callReport_keeps _ _)

theorem launchActions_keeps (x b : Nat) (s : State) : Keeps [.tracker, .berth] s (launchActions x b s) := by
  unfold launchActions
  have h : Keeps [.tracker, .berth] s
      (match s.berthOf x with
        | some w => s.setBoat b (captureWeight s.config w)
        | none => s) := by
    split
    · exact (setBoat_keeps _ _ _).mono
    · exact Keeps.refl _ _
  have h := h.next (setBoat_keeps _ b fun r => { r with launchCount := saturatingSucc r.launchCount })
  dsimp only
  split
  · exact (h.next (setBerth_keeps _ _)).next (copyPaceBuffer_keeps _)
  · exact h

theorem passageOf_keeps (e b tag : Nat) (s : State) : Keeps tripParts s (passageOf e b tag s) := by
  unfold passageOf
  have h := (stepTwo_keeps e b s)
  have h := ((h.next (dwellCheck_keeps (s.config.source e) b _)).next (moveBoat_keeps e b _)).next (callReport_keeps _
    (.passage b e (stepTwo e b s).1 (s.tooEarly (s.config.source e) b) (s.config.source e) (s.config.destination e)))
  have h := (h.next (tagCheck_keeps e b tag _)).next (closeGate_keeps .autoClose (s.config.source e) _)
  dsimp only
  split
  · exact h.next (launchActions_keeps _ _ _)
  · exact h

theorem takePassage_keeps (e tag : Nat) (s : State) : Keeps tripParts s (takePassage e tag s) := by
  unfold takePassage
  split
  · exact (faultEdge_keeps _ _ _).next (handOn_keeps _ _)
  · exact (passageOf_keeps _ _ _ _).next (handOn_keeps _ _)

theorem eyeFails_keeps (e : Nat) (s : State) : Keeps tripParts s (eyeFails e s) := by
  unfold eyeFails
  have h : Keeps tripParts s (faultSegments .eyeFault [s.config.source e, s.config.destination e] s) :=
    (faultSegments_keeps _ _ _).mono
  dsimp only
  split
  · exact (h.next (raiseCause_keeps _ _ _ _)).next (handOn_keeps _ _)
  · exact h.next (handOn_keeps _ _)

theorem countPassages_keeps (e baseline counter tag : Nat) (s : State) :
    Keeps tripParts s (countPassages e baseline counter tag s) := by
  unfold countPassages
  split
  · exact Keeps.refl _ _
  · exact takePassage_keeps _ _ _
  · exact (faultEdge_keeps _ _ _).next (handOn_keeps _ _)

theorem takeEye_keeps (e : Nat) (st : EyeState) (counter tag : Nat) (s : State) :
    Keeps tripParts s (takeEye e st counter tag s) := by
  unfold takeEye
  dsimp only
  split
  · have h : Keeps tripParts s (s.setEye e fun _ => ⟨.fault, (s.eye e).baseline.map fun _ => counter⟩) :=
      (setEye_keeps _ _ _).mono
    split
    · exact h
    · exact h.next (eyeFails_keeps _ _)
  · have h : Keeps tripParts s (s.setEye e fun _ => ⟨st, some counter⟩) := (setEye_keeps _ _ _).mono
    split
    · exact h
    · exact h.next (countPassages_keeps _ _ _ _ _)

theorem takeInputs_keeps (p : Nat) (r : NodeReport) (s : State) : Keeps tripParts s (takeInputs p r s) :=
  eachOf_keeps (fun i s => by
    unfold takeInput
    split
    · exact Keeps.refl _ _
    · exact takeEye_keeps _ _ _ _ _) _ _

theorem lapse_keeps (r : Reservation) (s : State) : Keeps modelParts s (lapse r s) := by
  unfold lapse
  have h : Keeps modelParts s (s.dropReservations (·.boat == r.boat)) := (dropReservations_keeps _ _).mono
  exact (((h.next (callReport_keeps _ _)).next (withdrawPerformance_keeps _ _)).next (closeGate_keeps _ _ _)).next
    (handOn_keeps _ _)

theorem takeOverdue_keeps (b g : Nat) (s : State) : Keeps tripParts s (takeOverdue b g s) := by
  unfold takeOverdue
  have h : Keeps tripParts s (s.setBoat b fun r => { r with dwell := .expired }) := (setBoat_keeps _ _ _).mono
  exact ((h.next (faultSegments_keeps _ _ _)).next (raiseCause_keeps _ _ _ _)).next (handOn_keeps _ _)

theorem startDwells_keeps (s : State) : Keeps [.tracker] s (startDwells s) :=
  eachOf_keeps (fun b s => by
    split
    · exact setBoat_keeps _ _ _
    · exact Keeps.refl _ _) _ _

/-! ## CourseLine.lean -/

theorem weighAt_keeps (p : Nat) (f : BerthLive → BerthLive) (s : State) : Keeps [.berth] s (weighAt p f s) :=
  eachOf_keeps (fun _ _ => setBerthLive_keeps _ _ _) _ _

theorem senseFinsAt_keeps (p : Nat) (f : FinFeedback) (s : State) : Keeps [.brake] s (senseFinsAt p f s) :=
  eachOf_keeps (fun _ _ => setFeedback_keeps _ _ _) _ _

theorem clearFeedback_keeps (s : State) : Keeps [.brake] s (clearFeedback s) :=
  eachOf_keeps (fun _ _ => setFeedback_keeps _ _ _) _ _

theorem blindEyes_keeps (es : List Nat) (s : State) : Keeps [.tracker] s (blindEyes es s) :=
  eachOf_keeps (fun _ _ => setEye_keeps _ _ _) _ _

theorem resetEyes_keeps (s : State) : Keeps [.tracker] s (resetEyes s) := setTracker_keeps _ _

theorem takeEstop_keeps (p : Nat) (isOpen : Bool) (s : State) :
    Keeps tripParts s (takeEstop p isOpen s) := by
  unfold takeEstop
  split
  · exact Keeps.refl _ _
  · have h : Keeps tripParts s (s.setNode p fun n => { n with estopOpen := isOpen }) :=
      (setNode_keeps _ _ _).mono
    have h := h.next (reportNode_keeps p (s.node p).state _)
    dsimp only
    split
    · exact h.next (raiseCause_keeps _ _ _ _)
    · exact h

theorem takeSustained_keeps (p : Nat) (x : Bool) (s : State) : Keeps [.line] s (takeSustained p x s) :=
  setNode_keeps _ _ _

theorem takeReport_keeps (p : Nat) (r : NodeReport) (s : State) :
    Keeps tripParts s (takeReport p r s) := by
  unfold takeReport
  have h : Keeps tripParts s (returnNode p s) := (returnNode_keeps _ _).mono
  have h := (h.next (takeSustained_keeps p r.sustained _)).next (takeEstop_keeps p r.estopOpen _)
  exact ((h.next (takeInputs_keeps _ _ _)).next (weighAt_keeps _ _ _)).next (senseFinsAt_keeps _ _ _)

theorem loseNode_keeps (p : Nat) (s : State) : Keeps tripParts s (loseNode p s) := by
  unfold loseNode
  have h : Keeps tripParts s
      (s.setNode p fun n => { n with state := .lost, misses := Config.missLimit }) := (setNode_keeps _ _ _).mono
  have h := (h.next (reportNode_keeps p (s.node p).state _)).next (blindEyes_keeps (s.config.edgesAt p) _)
  exact (((h.next (faultSegments_keeps _ _ _)).next (senseFinsAt_keeps _ _ _)).next (raiseCause_keeps _ _ _ _)).next
    (handOn_keeps _ _)

theorem missSlot_keeps (p : Nat) (s : State) : Keeps tripParts s (missSlot p s) := by
  unfold missSlot
  have h : Keeps tripParts s (weighAt p BerthLive.older s) := (weighAt_keeps _ _ _).mono
  dsimp only
  split
  · exact (h.next (setNode_keeps _ _ _)).next (reportNode_keeps _ _ _)
  · split
    · exact h.next (setNode_keeps _ _ _)
    · exact h.next (loseNode_keeps _ _)
  · exact h
  · exact h

theorem endSustain_keeps (d : Drill) (s : State) :
    Keeps [.passage, .ride, .directive, .report] s (endSustain d s) := by
  unfold endSustain
  have h : Keeps [.passage, .ride, .directive, .report] s (endDrill s) := (endDrill_keeps _).mono
  exact ((h.next (answer_keeps _ _ _ _ _ _)).next (callReport_keeps _ _)).next
    (eachOf_keeps (fun i s => askImage_keeps s i false) _ _)

theorem closeCheckRound_keeps (s : State) : Keeps [.passage, .ride, .directive, .report] s (closeCheckRound s) := by
  unfold closeCheckRound
  split
  · split
    · exact endSustain_keeps _ _
    · exact (setRide_keeps _ _).mono
  · exact Keeps.refl _ _
  · exact Keeps.refl _ _

theorem closeRound_keeps (s : State) : Keeps [.passage, .line, .ride, .directive, .report] s (closeRound s) :=
  ((setLine_keeps s _).mono (P := [.passage, .line, .ride, .directive, .report])).next (closeCheckRound_keeps _)

theorem closeSlot_keeps (p : Nat) (s : State) : Keeps [.passage, .line, .ride, .directive, .report] s (closeSlot p s) := by
  unfold closeSlot
  split
  · exact (setLine_keeps _ _).mono
  · exact closeRound_keeps _

theorem slotReport_keeps (p : Nat) (r : NodeReport) (s : State) :
    Keeps tripParts s (slotReport p r s) := by
  unfold slotReport
  have h : Keeps tripParts s (s.setLine { s.line with heard := true }) := (setLine_keeps _ _).mono
  dsimp only
  split
  · exact (h.next (weighAt_keeps _ _ _)).next (closeSlot_keeps _ _)
  · exact (h.next (takeReport_keeps _ _ _)).next (closeSlot_keeps _ _)

theorem slotMiss_keeps (p : Nat) (s : State) : Keeps tripParts s (slotMiss p s) :=
  (missSlot_keeps p s).next (closeSlot_keeps _ _)

theorem sendRound_keeps (r n : Nat) (s : State) : Keeps [.line] s (sendRound r n s) := setLine_keeps _ _

theorem withholdRound_keeps (r n : Nat) (s : State) : Keeps [.line] s (withholdRound r n s) := setLine_keeps _ _

theorem endWithholding_keeps (tag : BitVec 16) (s : State) :
    Keeps [.passage, .line, .ride, .report] s (endWithholding tag s) := by
  unfold endWithholding
  exact ((returnNodes_keeps s).mono (P := [.passage, .line, .ride, .report])).next (setRide_keeps _ _)

theorem beginRound_keeps (s : State) : Keeps [.passage, .line, .ride, .report] s (beginRound s) := by
  unfold beginRound
  dsimp only
  split
  · next tag left _ =>
    exact ((setRide_keeps s { s.ride with drill := some ⟨tag, .withheld, left⟩ }).mono
      (P := [.passage, .line, .ride, .report])).next (withholdRound_keeps _ _ _)
  · exact (endWithholding_keeps _ _).next (sendRound_keeps _ _ _)
  · exact (sendRound_keeps _ _ _).mono
  · exact (sendRound_keeps _ _ _).mono

theorem stopRounds_keeps (l : LineState) (s : State) : Keeps [.line] s (stopRounds l s) := setLine_keeps _ _

theorem lineDown_keeps (c : LineCause) (s : State) : Keeps tripParts s (lineDown c s) := by
  unfold lineDown
  have h : Keeps tripParts s (stopRounds .down s) := (stopRounds_keeps _ _).mono
  have h := (h.next (callReport_keeps _ (.line .down c 0))).next (faultSegments_keeps .lineDown s.config.segmentIds _)
  have h := (h.next (blindEyes_keeps s.config.edgeIds _)).next (clearFeedback_keeps _)
  exact (h.next (raiseCause_keeps _ _ _ _)).next (handOn_keeps _ _)

theorem faultForRestart_keeps (s : State) : Keeps modelParts s (faultForRestart s) := by
  unfold faultForRestart
  split
  · exact ((faultSegments_keeps _ _ s).mono (P := modelParts)).next (handOn_keeps _ _)
  · exact Keeps.refl _ _

theorem startDiscovery_keeps (s : State) : Keeps (modelParts ++ [.line]) s (startDiscovery s) := by
  unfold startDiscovery
  have h : Keeps (modelParts ++ [.line]) s (faultForRestart s) := (faultForRestart_keeps _).mono
  have h := (h.next (stopRounds_keeps .discovering _)).next (callReport_keeps _ (.line .discovering .none 0))
  exact (((h.next (setLine_keeps _ _)).next (setBerth_keeps _ _)).next (resetEyes_keeps _)).next
    (clearFeedback_keeps _)

theorem sendQuery_keeps (p : Nat) (s : State) : Keeps [.line] s (sendQuery p s) := setLine_keeps _ _

/-! ## Take.lean -/

theorem install_keeps (c : FlumeConfig) (s : State) :
    Keeps [.verdict, .hold, .tracker, .berth, .brake, .line, .report, .loader] s (install c s) := by
  unfold install
  have h : Keeps [.verdict, .hold, .tracker, .berth, .brake, .line, .report, .loader] s
      (s.setLoader { s.loader with active := some c }) := (setLoader_keeps _ _).mono
  exact ((((((h.next (setVerdict_keeps _ _)).next (setTracker_keeps _ _)).next (setHold_keeps _ _)).next
    (setBerth_keeps _ _)).next (setBrake_keeps _ _)).next (setLine_keeps _ _)).next (setReport_keeps _ _)

theorem askPage_keeps (s : State) : Keeps [.passage] s (askPage s) := eachOf_keeps (fun _ _ => askImage_keeps _ _ _) _ _

theorem askRosters_keeps (s : State) : Keeps [.passage] s (askRosters s) :=
  eachOf_keeps (fun _ _ => askImage_keeps _ _ _) _ _

theorem loadInvalid_keeps (check item : Nat) (s : State) : Keeps [.passage, .loader] s (loadInvalid check item s) := by
  unfold loadInvalid
  have h : Keeps [.passage, .loader] s (s.setLoader { s.loader with failure := (check, item), phase := .invalid }) :=
    (setLoader_keeps _ _).mono
  exact (h.next (askPage_keeps _)).next (askImage_keeps _ _ _)

theorem loadStore_keeps (s : State) : Keeps (mayChange .storeImageRead) s (loadStore s) := by
  unfold loadStore
  split
  · next image _ =>
    unfold loadValid
    have h : Keeps (mayChange .storeImageRead) s (install image.config s) := (install_keeps _ _).mono
    have h := h.next (setLoader_keeps _
      { (install image.config s).loader with activeCrc := image.crc, source := .store, phase := .installed })
    exact (((h.next (askRosters_keeps _)).next (askPage_keeps _)).next (askImage_keeps _ _ _)).next
      (initialWrites_keeps _)
  · exact (loadInvalid_keeps _ _ _).mono

theorem endLoading_keeps (s : State) : Keeps (mayChange .endOfLoading) s (endLoading s) := by
  unfold endLoading
  have h : Keeps (mayChange .endOfLoading) s (s.setLoader { s.loader with phase := .finished }) :=
    (setLoader_keeps _ _).mono
  dsimp only
  split
  · exact (((h.next (callReport_keeps _ _)).next (enterState_keeps _ _)).next (reportState_keeps _ _ _)).next
      (startDiscovery_keeps _)
  · exact h.next (enterState_keeps _ _)

theorem leaveOldMap_keeps (s : State) : Keeps [.passage] s (leaveOldMap s) := setPassage_keeps _ _

theorem askIndices_keeps (s : State) : Keeps [.passage] s (askIndices s) :=
  (askImage_keeps _ _ _).next (askImage_keeps _ _ _)

theorem takeImage_keeps (i : Image) (s : State) : Keeps takeParts s (takeImage i s) := by
  unfold takeImage
  have h : Keeps takeParts s (s.enterState (.offline .discovering)) := (enterState_keeps _ _).mono
  have h := ((h.next (safeWrites_keeps _)).next (leaveOldMap_keeps _)).next (install_keeps i.config _)
  have h := h.next (Q := [.loader]) (u := commitBlock i (install i.config (leaveOldMap (safeWrites (s.enterState (.offline .discovering))))))
    (setLoader_keeps _ _)
  have h := h.next (askIndices_keeps _)
  have h := (h.next (callReport_keeps _ (.config .taken 0 0 i.crc 0))).next (reportState_keeps s.ride.state .configTake _)
  exact (((h.next (initialWrites_keeps _)).next (startDiscovery_keeps _)).next (askRosters_keeps _)).next
    (askPage_keeps _)

theorem stopAt_keeps (o : Occasion) (s : State) : Keeps (modelParts ++ [.ride]) s (stopAt o s) := by
  unfold stopAt
  have h : Keeps (modelParts ++ [.ride]) s (s.enterState .stopped) := (enterState_keeps _ _).mono
  have h := (h.next (copyPaceBuffer_keeps _)).next (pacerWork_keeps s _)
  dsimp only
  split
  · exact (h.next (takeProfiles_keeps _)).next (reportState_keeps _ _ _)
  · exact h.next (reportState_keeps _ _ _)

theorem enterStopped_keeps (o : Occasion) (s : State) : Keeps takeParts s (enterStopped o s) := by
  unfold enterStopped
  split
  · exact takeImage_keeps _ _
  · split
    · exact (tripAction_keeps _ _ _ _).mono
    · exact (stopAt_keeps _ _).mono

theorem answerRestart_keeps (d : Nat) (s : State) : Keeps [.directive] s (answerRestart d s) := by
  unfold answerRestart
  split
  · exact (setDirective_keeps s _).next (answer_keeps _ _ _ _ _ _)
  · exact Keeps.refl _ _
  · exact Keeps.refl _ _

theorem discoveryMatches_keeps (n : Nat) (s : State) : Keeps takeParts s (discoveryMatches n s) := by
  unfold discoveryMatches
  have h : Keeps takeParts s
      (s.setLine { s.line with state := .up, lowSince := s.line.lowSince.map fun _ => s.clock, slot := none }) :=
    (setLine_keeps _ _).mono
  have h := h.next (eachOf_keeps (P := [.line])
    (fun p s => setNode_keeps s p fun n => { n with state := .active, misses := 0 })
    s.config.positions _)
  dsimp only
  split
  · have h := h.next (enterStopped_keeps .lineUp _)
    split
    · exact ((h.next (callReport_keeps _ _)).next (answerRestart_keeps _ _)).next (sendRound_keeps _ _ _)
    · exact h
  · split
    · exact ((h.next (callReport_keeps _ _)).next (answerRestart_keeps _ _)).next (sendRound_keeps _ _ _)
    · exact h

theorem discoveryFails_keeps (c : LineCause) (d : Nat) (s : State) : Keeps takeParts s (discoveryFails c d s) := by
  unfold discoveryFails
  have h : Keeps takeParts s (s.setLine { s.line with state := .failed, tx := .released }) := (setLine_keeps _ _).mono
  dsimp only
  split
  · exact (((h.next (enterState_keeps _ _)).next (reportState_keeps _ _ _)).next (callReport_keeps _ _)).next
      (answerRestart_keeps _ _)
  · exact (h.next (callReport_keeps _ _)).next (answerRestart_keeps _ _)

theorem endDiscovery_keeps (n : Nat) (s : State) : Keeps takeParts s (endDiscovery n s) := by
  unfold endDiscovery
  have h : Keeps takeParts s (s.setLine { s.line with discovery := .idle }) := (setLine_keeps _ _).mono
  dsimp only
  split
  · exact h.next (discoveryFails_keeps _ _ _)
  · split
    · exact h.next (discoveryMatches_keeps _ _)
    · exact h.next (discoveryFails_keeps _ _ _)

theorem takeAnswer_keeps (p : Nat) (f : List Byte) (s : State) : Keeps takeParts s (takeAnswer p f s) := by
  unfold takeAnswer
  have h : Keeps takeParts s
      (s.setNode p fun n => { n with discovered := answerKind f, serial := answerSerial f }) := (setNode_keeps _ _ _).mono
  dsimp only
  split
  · exact h.next (endDiscovery_keeps _ _)
  · exact h.next (sendQuery_keeps _ _)

theorem savePage_keeps (p : Nat) (i : List Byte) (c : Nat) (s : State) :
    Keeps [.passage, .report, .loader] s (savePage p i c s) := by
  unfold savePage
  dsimp only
  split
  · exact ((setLoader_keeps s _).mono (P := [.passage, .report, .loader])).next (callReport_keeps _ _)
  · exact (setLoader_keeps _ _).mono

theorem failSave_keeps (p c : Nat) (s : State) : Keeps [.passage, .report, .loader] s (failSave p c s) :=
  ((setLoader_keeps s _).mono (P := [.passage, .report, .loader])).next (callReport_keeps _ _)

/-! ## Directives.lean -/

theorem done_keeps (q : Asked) (d : List Nat) (s : State) : Keeps [.directive] s (q.done d s) := answer_keeps _ _ _ _ _ _

theorem refuse_keeps (q : Asked) (r : Reason) (d : List Nat) (s : State) : Keeps [.directive] s (q.refuse r d s) :=
  answer_keeps _ _ _ _ _ _

theorem invalid_keeps (q : Asked) (s : State) : Keeps [.directive] s (q.invalid s) := answer_keeps _ _ _ _ _ _

theorem startRunning_keeps (s : State) : Keeps (modelParts ++ [.ride]) s (startRunning s) := by
  unfold startRunning
  have h : Keeps (modelParts ++ [.ride]) s (s.enterState .running) := (enterState_keeps _ _).mono
  have h := h.next (Q := [.berth]) (u := saturatePacer (s.enterState .running)) (setBerth_keeps _ _)
  exact ((h.next (startDwells_keeps _)).next (reportState_keeps _ _ _)).next (handOn_keeps _ _)

theorem startRide_keeps (q : Asked) (args : List Word) (s : State) :
    Keeps (modelParts ++ [.ride, .directive]) s (startRide q args s) := by
  unfold startRide
  split
  · exact (invalid_keeps _ _).mono
  · split
    · exact (refuse_keeps _ _ _ _).mono
    · split
      · exact (refuse_keeps _ _ _ _).mono
      · split
        · exact (refuse_keeps _ _ _ _).mono
        · exact ((startRunning_keeps s).mono (P := modelParts ++ [.ride, .directive])).next (done_keeps _ _ _)

theorem stopRide_keeps (q : Asked) (args : List Word) (s : State) : Keeps takeParts s (stopRide q args s) := by
  unfold stopRide
  split
  · exact (invalid_keeps _ _).mono
  · split
    · exact (refuse_keeps _ _ _ _).mono
    · exact (((purge_keeps s).mono (P := takeParts)).next (enterStopped_keeps _ _)).next (done_keeps _ _ _)

theorem stopNow_keeps (q : Asked) (args : List Word) (s : State) : Keeps tripParts s (stopNow q args s) := by
  unfold stopNow
  split
  · exact (invalid_keeps _ _).mono
  · split
    · exact (refuse_keeps _ _ _ _).mono
    · exact ((raiseCause_keeps _ _ _ s).mono (P := tripParts)).next (done_keeps _ _ _)

theorem resetTrip_keeps (q : Asked) (args : List Word) (s : State) : Keeps takeParts s (resetTrip q args s) := by
  unfold resetTrip
  split
  · exact (invalid_keeps _ _).mono
  · split
    · exact (refuse_keeps _ _ _ _).mono
    · split
      · exact (refuse_keeps _ _ _ _).mono
      · exact (enterStopped_keeps _ _).next (done_keeps _ _ _)

theorem drillTrip_keeps (q : Asked) (s : State) : Keeps tripParts s (drillTrip q s) :=
  (((raiseCause_keeps .drill .none 0 s).mono (P := tripParts)).next (callReport_keeps _ _)).next (done_keeps _ _ _)

theorem drillSustain_keeps (q : Asked) (s : State) : Keeps [.line, .ride] s (drillSustain q s) := by
  unfold drillSustain
  exact ((setLine_keeps s _).mono (P := [.line, .ride])).next (setRide_keeps _ _)

theorem drill_keeps (q : Asked) (args : List Word) (s : State) : Keeps tripParts s (drill q args s) := by
  unfold drill
  split
  · split
    · exact (invalid_keeps _ _).mono
    · split
      · exact (refuse_keeps _ _ _ _).mono
      · split
        · exact (drillTrip_keeps _ _).mono
        · exact (drillSustain_keeps _ _).mono
  · exact (invalid_keeps _ _).mono
  · exact (invalid_keeps _ _).mono

theorem placeBoat_keeps (b g : Nat) (s : State) : Keeps modelParts s (placeBoat b g s) := by
  unfold placeBoat
  have h : Keeps modelParts s (s.setBoat b fun r => { BoatRecord.vacant with stay := r.stay }) := (setBoat_keeps _ _ _).mono
  exact ((h.next (arrive_keeps _ _ _)).next (setQueue_keeps _ _ _)).next (handOn_keeps _ _)

theorem addBoat_keeps (q : Asked) (args : List Word) (s : State) :
    Keeps (modelParts ++ [.directive]) s (addBoat q args s) := by
  unfold addBoat
  split
  · dsimp only
    split
    · exact (invalid_keeps _ _).mono
    · split
      · exact (refuse_keeps _ _ _ _).mono
      · split
        · exact (refuse_keeps _ _ _ _).mono
        · split
          · exact (refuse_keeps _ _ _ _).mono
          · split
            · exact (refuse_keeps _ _ _ _).mono
            · exact ((placeBoat_keeps _ _ s).mono (P := modelParts ++ [.directive])).next (done_keeps _ _ _)
  · exact (invalid_keeps _ _).mono
  · exact (invalid_keeps _ _).mono
  · exact (invalid_keeps _ _).mono

theorem removeBoat_keeps (b : Nat) (s : State) : Keeps modelParts s (removeBoat b s) := by
  unfold removeBoat
  have h : Keeps modelParts s (s.leaveQueue b) := (leaveQueue_keeps _ _).mono
  exact ((h.next (dropReservations_keeps _ _)).next (setBoat_keeps _ _ _)).next (handOn_keeps _ _)

theorem withdrawBoat_keeps (q : Asked) (args : List Word) (s : State) :
    Keeps (modelParts ++ [.directive]) s (withdrawBoat q args s) := by
  unfold withdrawBoat
  split
  · dsimp only
    split
    · exact (invalid_keeps _ _).mono
    · split
      · exact (refuse_keeps _ _ _ _).mono
      · split
        · exact (refuse_keeps _ _ _ _).mono
        · exact ((removeBoat_keeps _ s).mono (P := modelParts ++ [.directive])).next (done_keeps _ _ _)
  · exact (invalid_keeps _ _).mono
  · exact (invalid_keeps _ _).mono

theorem reseatSegment_keeps (g : Nat) (bs : List Nat) (s : State) : Keeps modelParts s (reseatSegment g bs s) := by
  unfold reseatSegment
  dsimp only
  refine Keeps.next ?_ (handOn_keeps _ _)
  refine Keeps.next ?_ (reseatWork_keeps _ _)
  refine Keeps.next ?_ (setSegment_keeps _ _ _)
  refine Keeps.next ?_ (setQueue_keeps _ _ _)
  refine Keeps.next ?_ (eachOf_keeps (P := [.tracker]) (fun b s => (arrive_keeps s b g).next (setBoat_keeps _ b _)) bs _)
  refine Keeps.next ?_ (eachOf_keeps (P := [.tracker]) (f := missBoat) (fun b s => setBoat_keeps s b _) _ _)
  refine Keeps.next ?_ (dropReservations_keeps _ _)
  exact eachOf_keeps (fun b s => (leaveQueue_keeps s b).mono) bs s

theorem reseat_keeps (q : Asked) (args : List Word) (s : State) :
    Keeps (modelParts ++ [.directive]) s (reseat q args s) := by
  unfold reseat
  split
  · dsimp only
    split
    · exact (invalid_keeps _ _).mono
    · split
      · exact (refuse_keeps _ _ _ _).mono
      · split
        · exact (refuse_keeps _ _ _ _).mono
        · split
          · exact (refuse_keeps _ _ _ _).mono
          · exact ((reseatSegment_keeps _ _ s).mono (P := modelParts ++ [.directive])).next (done_keeps _ _ _)
  · exact (invalid_keeps _ _).mono
  · exact (invalid_keeps _ _).mono

theorem setPace_keeps (q : Asked) (args : List Word) (s : State) :
    Keeps (modelParts ++ [.directive]) s (setPace q args s) := by
  unfold setPace
  split
  · next x =>
    have h : Keeps (modelParts ++ [.directive]) s (bufferPace x.toNat s) :=
      (show Keeps [.berth] s _ from setBerth_keeps _ _).mono
    split
    · exact (invalid_keeps _ _).mono
    · split
      · exact (refuse_keeps _ _ _ _).mono
      · split
        · exact ((h.next (copyPaceBuffer_keeps _)).next (handOn_keeps _ _)).next (done_keeps _ _ _)
        · exact h.next (done_keeps _ _ _)
  · exact (invalid_keeps _ _).mono
  · exact (invalid_keeps _ _).mono

theorem setProfile_keeps (q : Asked) (args : List Word) (s : State) :
    Keeps [.passage, .tracker, .brake, .directive, .report] s (setProfile q args s) := by
  unfold setProfile
  split
  · next k n rest =>
    have h : Keeps [.passage, .tracker, .brake, .directive, .report] s (bufferProfile k.toNat (stepsOf rest) s) :=
      (((setBrake_keeps s _).mono (P := [.passage, .tracker, .brake, .directive, .report])).next (askImage_keeps _ _ _))
    dsimp only
    split
    · exact (invalid_keeps _ _).mono
    · split
      · exact (refuse_keeps _ _ _ _).mono
      · split
        · exact (h.next (takeProfiles_keeps _)).next (done_keeps _ _ _)
        · exact h.next (done_keeps _ _ _)
  · exact (invalid_keeps _ _).mono
  · exact (invalid_keeps _ _).mono

theorem commitConfig_keeps (q : Asked) (args : List Word) (s : State) :
    Keeps [.passage, .directive] s (commitConfig q args s) := by
  unfold commitConfig
  split
  · dsimp only
    split
    · exact (invalid_keeps _ _).mono
    · exact ((setDirective_keeps s _).mono (P := [.passage, .directive])).next (setPassage_keeps _ _)
  · exact (invalid_keeps _ _).mono
  · exact (invalid_keeps _ _).mono

theorem pendImage_keeps (i : Image) (s : State) : Keeps [.passage, .report, .loader] s (pendImage i s) := by
  unfold pendImage
  have h : Keeps [.passage, .report, .loader] s (s.setLoader { s.loader with pendingImage := some i }) :=
    (setLoader_keeps _ _).mono
  dsimp only
  split
  · exact (h.next (callReport_keeps _ _)).next (askImage_keeps _ _ _)
  · exact (h.next (callReport_keeps _ _)).next (askImage_keeps _ _ _)

theorem decideCommit_keeps (tag : BitVec 16) (n : Nat) (bs : List Byte) (s : State) :
    Keeps takeParts s (decideCommit tag n bs s) := by
  unfold decideCommit
  have h : Keeps takeParts s (s.setDirective { s.directive with long := none }) := (setDirective_keeps _ _).mono
  dsimp only
  split
  · unfold refuseCommit
    exact (((h.next (setLoader_keeps _ _)).next (callReport_keeps _ _)).next (askImage_keeps _ _ _)).next
      (refuse_keeps _ _ _ _)
  · split
    · exact (h.next (pendImage_keeps _ _)).next (done_keeps _ _ _)
    · exact (h.next (takeImage_keeps _ _)).next (done_keeps _ _ _)

theorem takeStaging_keeps (bs : List Byte) (s : State) : Keeps takeParts s (takeStaging bs s) := by
  unfold takeStaging
  split
  · dsimp only
    split
    · exact decideCommit_keeps _ _ _ _
    · exact (setDirective_keeps _ _).mono
  · exact Keeps.refl _ _
  · exact Keeps.refl _ _

theorem leaveFailed_keeps (s : State) : Keeps [.passage, .ride, .report] s (leaveFailed s) := by
  unfold leaveFailed
  split
  · exact ((enterState_keeps s _).mono (P := [.passage, .ride, .report])).next (reportState_keeps _ _ _)
  · exact Keeps.refl _ _

theorem restartLine_keeps (q : Asked) (args : List Word) (s : State) :
    Keeps (modelParts ++ [.ride, .line, .directive]) s (restartLine q args s) := by
  unfold restartLine
  split
  · exact (invalid_keeps _ _).mono
  · split
    · exact (refuse_keeps _ _ _ _).mono
    · exact (((leaveFailed_keeps s).mono (P := modelParts ++ [.ride, .line, .directive])).next
        (startDiscovery_keeps _)).next (setDirective_keeps _ _)

theorem dispatch_keeps (k : DirectiveKind) (tag : BitVec 16) (args : List Word) (s : State) :
    Keeps takeParts s (dispatch k tag args s) := by
  cases k
  · exact (startRide_keeps _ _ _).mono
  · exact stopRide_keeps _ _ _
  · exact (stopNow_keeps _ _ _).mono
  · exact resetTrip_keeps _ _ _
  · exact (drill_keeps _ _ _).mono
  · exact (addBoat_keeps _ _ _).mono
  · exact (withdrawBoat_keeps _ _ _).mono
  · exact (reseat_keeps _ _ _).mono
  · exact (setPace_keeps _ _ _).mono
  · exact (setProfile_keeps _ _ _).mono
  · exact (commitConfig_keeps _ _ _).mono
  · exact (restartLine_keeps _ _ _).mono

/-- A directive answered BUSY or dispatched changes what its dispatch changes, and the Directive Unit. -/
theorem request_keeps {P : List Part} {k : DirectiveKind} {tag : BitVec 16} {args : List Word} {s : State}
    (h : Keeps P s (dispatch k tag args s)) (hd : Part.directive ∈ P) : Keeps P s (request k tag args s) := by
  unfold request
  split
  · exact (answer_keeps _ _ _ _ _ _).mono (List.cons_subset.mpr ⟨hd, List.nil_subset P⟩)
  · exact h

theorem startArguments_keeps (k : DirectiveKind) (tag : BitVec 16) (n : Nat) (s : State) :
    Keeps [.passage, .directive] s (startArguments k tag n s) := by
  unfold startArguments
  exact ((setDirective_keeps s _).mono (P := [.passage, .directive])).next (setPassage_keeps _ _)

theorem takeTrigger_keeps (w : Word) (s : State) : Keeps takeParts s (takeTrigger w s) := by
  unfold takeTrigger
  split
  · exact Keeps.refl _ _
  · split
    · exact (answer_keeps _ _ _ _ _ _).mono
    · unfold triggerKnown
      split
      · exact request_keeps (dispatch_keeps _ _ _ _) (by decide)
      · split
        · exact (answer_keeps _ _ _ _ _ _).mono
        · exact (startArguments_keeps _ _ _ _).mono

theorem takeArgument_keeps (w : Word) (s : State) : Keeps takeParts s (takeArgument w s) := by
  unfold takeArgument
  split
  · exact Keeps.refl _ _
  · dsimp only
    split
    · exact ((setDirective_keeps s _).mono (P := takeParts)).next (dispatch_keeps _ _ _ _)
    · exact (setDirective_keeps _ _).mono

/-! ## MemoryPort.lean -/

theorem grantUpkeep_keeps (s : State) : Keeps [.passage] s (grantUpkeep s) := setPassage_keeps _ _

theorem grantPassage_keeps (s : State) : Keeps [.passage] s (grantPassage s) := setPassage_keeps _ _

theorem clearWaiting_keeps (m : MotionWrite) (s : State) : Keeps [.brake] s (clearWaiting m s) := by
  unfold clearWaiting
  split
  · exact setRunout_keeps _ _ _
  · exact setConveyor_keeps _ _ _
  all_goals exact Keeps.refl _ _

theorem grantMotion_keeps (m : MotionWrite) (s : State) : Keeps [.passage, .brake] s (grantMotion m s) := by
  unfold grantMotion
  have h : Keeps [.passage, .brake] s (s.setPassage { s.passage with motion := s.passage.motion.tail }) :=
    (setPassage_keeps _ _).mono
  dsimp only
  split
  · exact h.next (clearWaiting_keeps _ _)
  · exact h.next (setPassage_keeps _ _)

theorem completeMotion_keeps (m : MotionWrite) (s : State) :
    Keeps (modelParts ++ [.memory, .verdict]) s (completeMotion m s) := by
  unfold completeMotion
  have h : Keeps (modelParts ++ [.memory, .verdict]) s (s.setPassage { s.passage with port := none }) :=
    (setPassage_keeps _ _).mono
  have h := h.next (setMemory_keeps _ ((s.setPassage { s.passage with port := none }).memory.writeWord m.addr
    (BitVec.ofNat 32 m.value)))
  dsimp only
  split
  · exact h
  · have h := (h.next (storeShadow_keeps _ m.word m.value)).next (clearWaiting_keeps m _)
    refine Keeps.next (Q := modelParts) (Keeps.next (Q := [.passage, .report]) h ?_) (handOn_keeps _ _)
    unfold reportPerformed
    split
    · exact (reportHoldEnd_keeps _ _ _ _).next (askImage_keeps _ _ _)
    · exact Keeps.refl _ _

theorem writeRecord_keeps (slot : Nat) (gap : Bool) (time : Nat) (r : Report) (n : Nat) (s : State) :
    Keeps [.memory, .report] s (writeRecord slot gap time r n s) := by
  unfold writeRecord
  exact ((setMemory_keeps s _).mono (P := [.memory, .report])).next (setReport_keeps _ _)

/-! ## ControllerPort.lean -/

theorem refusePort_keeps (a : Access) (r : Reason) (s : State) : Keeps [.passage] s (refusePort a r s) :=
  ((setPassage_keeps s _).next (askImage_keeps _ _ _)).next (respondError_keeps _ _)

theorem performRead_keeps (a : Access) (s : State) : Keeps [.passage] s (performRead a s) := by
  unfold performRead
  split
  · exact refusePort_keeps _ _ _
  · exact respondDone_keeps _ _

theorem storeBeat_keeps (a : Access) (k : Nat) (w : Word) (s : State) : Keeps [.memory] s (storeBeat a k w s) :=
  setMemory_keeps _ _

theorem performWrite_keeps (a : Access) (s : State) : Keeps [.memory, .passage] s (performWrite a s) := by
  have h : Keeps [.memory, .passage] s ((storeBeat a a.word a.value s).respondDone []) :=
    ((storeBeat_keeps a a.word a.value s).mono (P := [.memory, .passage])).next (respondDone_keeps _ _)
  unfold performWrite
  split
  all_goals first
    | exact h
    | exact (refusePort_keeps _ _ _).mono
    | exact Keeps.refl _ _

theorem recordVerdict_keeps (v : LastVerdict) (s : State) :
    Keeps [.passage, .verdict, .report] s (recordVerdict v s) := by
  unfold recordVerdict
  exact (((setVerdict_keeps s _).mono (P := [.passage, .verdict, .report])).next (callReport_keeps _ _)).next
    (askImage_keeps _ _ _)

theorem refuseGuarded_keeps (w : WordRef) (v : Word) (a : Access) (r : Reason) (b : Nat) (s : State) :
    Keeps [.passage, .verdict, .report] s (refuseGuarded w v a r b s) :=
  (recordVerdict_keeps _ s).next (respondError_keeps _ _)

theorem storeGuarded_keeps (w : WordRef) (v : Nat) (s : State) : Keeps [.memory, .verdict] s (storeGuarded w v s) := by
  unfold storeGuarded
  exact ((setMemory_keeps s _).mono (P := [.memory, .verdict])).next (storeShadow_keeps _ _ _)

theorem holdWrite_keeps (w : WordRef) (a : Access) (v : Nat) (m : Bool) (r : Reason) (b : Nat) (s : State) :
    Keeps [.passage, .verdict, .hold, .report] s (holdWrite w a v m r b s) := by
  unfold holdWrite
  split
  · exact (refuseGuarded_keeps _ _ _ _ _ _).mono
  · exact (((recordVerdict_keeps _ s).mono (P := [.passage, .verdict, .hold, .report])).next
      (setEntries_keeps _ _)).next (respondDone_keeps _ _)

theorem reserve_keeps (r : Option Reservation) (s : State) : Keeps [.tracker] s (reserve r s) := by
  unfold reserve
  split
  · exact addReservation_keeps _ _
  · exact Keeps.refl _ _

theorem takeVerdict_keeps (w : WordRef) (a : Access) (s : State) :
    Keeps (modelParts ++ [.memory, .verdict]) s (takeVerdict w a s) := by
  unfold takeVerdict
  dsimp only
  split
  · exact ((((storeGuarded_keeps w _ s).mono (P := modelParts ++ [.memory, .verdict])).next (reserve_keeps _ _)).next
      (respondDone_keeps _ _)).next (handOn_keeps _ _)
  · exact ((((storeGuarded_keeps w _ s).mono (P := modelParts ++ [.memory, .verdict])).next
      (recordVerdict_keeps _ _)).next (respondDone_keeps _ _)).next (handOn_keeps _ _)
  · exact (holdWrite_keeps _ _ _ _ _ _ _).mono
  · exact (refuseGuarded_keeps _ _ _ _ _ _).mono

theorem supersede_keeps (w : WordRef) (s : State) : Keeps [.passage, .hold, .report] s (supersede w s) := by
  unfold supersede
  split
  · exact endHeld_keeps _ _ _ _
  · exact Keeps.refl _ _

theorem guardedWrite_keeps (w : WordRef) (a : Access) (s : State) :
    Keeps (modelParts ++ [.memory, .verdict]) s (guardedWrite w a s) := by
  unfold guardedWrite
  have h : Keeps (modelParts ++ [.memory, .verdict]) s (supersede w s) := (supersede_keeps _ _).mono
  dsimp only
  split
  · exact h.next (refuseGuarded_keeps _ _ _ _ _ _)
  · exact h.next (takeVerdict_keeps _ _ _)

theorem performGuarded_keeps (a : Access) (s : State) :
    Keeps (modelParts ++ [.memory, .verdict]) s (performGuarded a s) := by
  unfold performGuarded
  split
  · exact guardedWrite_keeps _ _ _
  all_goals exact Keeps.refl _ _

theorem storeBeats_keeps (a : Access) (bs : List (Nat × Word)) (s : State) :
    Keeps [.memory] s (storeBeats a bs s) := eachOf_keeps (fun _ _ => storeBeat_keeps _ _ _ _) _ _

theorem performBurst_keeps (a : Access) (s : State) :
    Keeps [.memory, .passage, .verdict, .report] s (performBurst a s) := by
  unfold performBurst
  split
  · exact (refusePort_keeps _ _ _).mono
  · split
    · exact (refuseGuarded_keeps _ _ _ _ _ _).mono
    · split
      · exact (refusePort_keeps _ _ _).mono
      · exact ((storeBeats_keeps a _ s).mono (P := [.memory, .passage, .verdict, .report])).next (respondDone_keeps _ _)

theorem storeStay_keeps (b k : Nat) (a : Access) (s : State) :
    Keeps [.memory, .passage, .tracker] s (storeStay b k a s) :=
  ((((storeBeat_keeps a k a.value s).mono (P := [.memory, .passage, .tracker])).next
    (setBoat_keeps _ b fun r => { r with stay := a.value != 0 }))).next (respondDone_keeps _ _)

theorem performStay_keeps (a : Access) (s : State) : Keeps [.memory, .passage, .tracker] s (performStay a s) := by
  unfold performStay
  split
  · exact storeStay_keeps _ _ _ _
  all_goals exact Keeps.refl _ _

theorem performConsumer_keeps (a : Access) (s : State) : Keeps [.memory, .passage, .report] s (performConsumer a s) := by
  unfold performConsumer
  exact (((storeBeat_keeps a a.word a.value s).mono (P := [.memory, .passage, .report])).next
    (respondDone_keeps _ _)).next (setReport_keeps _ _)

theorem performTrigger_keeps (a : Access) (s : State) : Keeps (takeParts ++ [.memory]) s (performTrigger a s) := by
  unfold performTrigger
  exact (((storeBeat_keeps a a.word a.value s).mono (P := takeParts ++ [.memory])).next
    (respondDone_keeps _ _)).next (takeTrigger_keeps _ _)

theorem performWindow_keeps (a : Access) (s : State) : Keeps [.memory, .passage, .tracker] s (performWindow a s) := by
  unfold performWindow
  split
  · exact (performRead_keeps _ _).mono
  · split
    · split
      · unfold writeThroughWindow
        split
        · split
          · exact storeStay_keeps _ _ _ _
          · exact (refusePort_keeps _ _ _).mono
        all_goals exact (refusePort_keeps _ _ _).mono
      · exact (refusePort_keeps _ _ _).mono
    all_goals exact Keeps.refl _ _

end Sys2Proof.Machine
end

