-- ==== Sys2Proof/Laws/Settles.lean ====
section
/-!
SUPPORT. What a hand-on can do, said once (R6, R51, R72): queues, conditions and eyes stand as they were; reservations,
motion writes and UPKEEP requests are only added behind those that wait, no reservation for a boat that holds one; a boat's record changes in its dwell clock and its
next step time alone; entries of the hold queue leave or take a new reason.
-/

namespace Sys2Proof.Machine

set_option Elab.async false

/-- A roster record but for its dwell clock and its next step time. -/
def BoatRecord.lasting (r : BoatRecord) : BoatRecord := { r with dwell := .none, nextStep := none }

/-- A held entry but for its reason. -/
def HeldEntry.lasting (h : HeldEntry) : HeldEntry := { h with reason := .room }

/-- What a hand-on leaves in place. -/
structure Settles (s t : State) : Prop where
  keeps        : Keeps modelParts s t
  segments     : t.tracker.segments = s.tracker.segments
  eyes         : t.tracker.eyes = s.tracker.eyes
  reservations : s.tracker.reservations <+: t.tracker.reservations
  steady       : ∀ b, s.holdsReservation b = true →
    ∀ r ∈ t.tracker.reservations, r.boat = b → r ∈ s.tracker.reservations
  roster       : t.tracker.roster.map BoatRecord.lasting = s.tracker.roster.map BoatRecord.lasting
  entries      : (t.hold.entries.map HeldEntry.lasting).Sublist (s.hold.entries.map HeldEntry.lasting)
  motion       : s.passage.motion <+: t.passage.motion
  upkeep       : s.passage.upkeep <+: t.passage.upkeep
  port         : t.passage.port = s.passage.port
  access       : t.passage.access = s.passage.access
  wait         : t.passage.upkeepWait = s.passage.upkeepWait
  response     : t.passage.response = s.passage.response
  refusals     : t.passage.refusals = s.passage.refusals
  lastRefusal  : t.passage.lastRefusal = s.passage.lastRefusal

theorem Settles.refl (s : State) : Settles s s where
  keeps := Keeps.refl _ _
  segments := rfl
  eyes := rfl
  reservations := List.prefix_refl _
  steady := fun _ _ _ h _ => h
  roster := rfl
  entries := List.Sublist.refl _
  motion := List.prefix_refl _
  upkeep := List.prefix_refl _
  port := rfl
  access := rfl
  wait := rfl
  response := rfl
  refusals := rfl
  lastRefusal := rfl

theorem holdsReservation_iff (s : State) (b : Nat) :
    s.holdsReservation b = true ↔ ∃ r ∈ s.tracker.reservations, r.boat = b := by
  simp [State.holdsReservation]

/-- A boat that holds a reservation holds it while reservations are only added. -/
theorem holdsReservation_of_prefix {s t : State} (h : s.tracker.reservations <+: t.tracker.reservations) {b : Nat}
    (hb : s.holdsReservation b = true) : t.holdsReservation b = true := by
  rw [holdsReservation_iff] at hb ⊢
  obtain ⟨r, hr, e⟩ := hb
  exact ⟨r, h.subset hr, e⟩

theorem Settles.trans {s t u : State} (h : Settles s t) (k : Settles t u) : Settles s u where
  keeps := h.keeps.next k.keeps
  segments := k.segments.trans h.segments
  eyes := k.eyes.trans h.eyes
  reservations := h.reservations.trans k.reservations
  steady := fun b hb r hr e =>
    h.steady b hb r (k.steady b (holdsReservation_of_prefix h.reservations hb) r hr e) e
  roster := k.roster.trans h.roster
  entries := k.entries.trans h.entries
  motion := h.motion.trans k.motion
  upkeep := h.upkeep.trans k.upkeep
  port := k.port.trans h.port
  access := k.access.trans h.access
  wait := k.wait.trans h.wait
  response := k.response.trans h.response
  refusals := k.refusals.trans h.refusals
  lastRefusal := k.lastRefusal.trans h.lastRefusal

theorem eachOf_settles {α : Type} {f : α → State → State} (h : ∀ x s, Settles s (f x s)) (xs : List α) (s : State) :
    Settles s (eachOf f xs s) := by
  induction xs generalizing s with
  | nil => exact Settles.refl s
  | cons x xs ih => exact (h x s).trans (ih _)

/-- A change that leaves tracker, hold queue and Passage Unit alone. -/
theorem Settles.of_keeps {s t : State} (h : Keeps [.berth, .brake, .report] s t) : Settles s t where
  keeps := h.mono
  segments := by rw [show s.tracker = t.tracker from h .tracker (by decide)]
  eyes := by rw [show s.tracker = t.tracker from h .tracker (by decide)]
  reservations := by rw [show s.tracker = t.tracker from h .tracker (by decide)]
  steady := fun _ _ _ hr _ => by rw [show s.tracker = t.tracker from h .tracker (by decide)]; exact hr
  roster := by rw [show s.tracker = t.tracker from h .tracker (by decide)]
  entries := by rw [show s.hold = t.hold from h .hold (by decide)]
  motion := by rw [show s.passage = t.passage from h .passage (by decide)]
  upkeep := by rw [show s.passage = t.passage from h .passage (by decide)]
  port := by rw [show s.passage = t.passage from h .passage (by decide)]
  access := by rw [show s.passage = t.passage from h .passage (by decide)]
  wait := by rw [show s.passage = t.passage from h .passage (by decide)]
  response := by rw [show s.passage = t.passage from h .passage (by decide)]
  refusals := by rw [show s.passage = t.passage from h .passage (by decide)]
  lastRefusal := by rw [show s.passage = t.passage from h .passage (by decide)]

/-! ## The operations -/

theorem callReport_settles (s : State) (r : Report) : Settles s (s.callReport r) := by
  unfold State.callReport
  dsimp only
  split
  · split
    · exact Settles.of_keeps (setReport_keeps _ _).mono
    · refine { Settles.refl s with
        keeps := (((setReport_keeps s _).mono (P := modelParts)).next (setPassage_keeps _ _))
        upkeep := List.prefix_append _ _ }
  · exact Settles.refl s

theorem decideMotion_settles (s : State) (w : WordRef) (v : Nat) (o : MotionOrigin) :
    Settles s (s.decideMotion w v o) :=
  { Settles.refl s with
    keeps := (decideMotion_keeps s w v o).mono
    motion := List.prefix_append _ _ }

theorem askImage_settles (s : State) (i : ImageItem) (c : Bool) : Settles s (s.askImage i c) := by
  unfold State.askImage
  split
  · exact Settles.refl s
  · exact { Settles.refl s with
      keeps := (setPassage_keeps _ _).mono
      upkeep := List.prefix_append _ _ }

theorem askChanged_settles (s0 s : State) : Settles s (askChanged s0 s) :=
  eachOf_settles (fun i s => askImage_settles s i false) _ _

theorem modifyAt_map {α β : Type} (f : α → α) (g : α → β) (h : ∀ x, g (f x) = g x) (xs : List α) (i : Nat) :
    (modifyAt f xs i).map g = xs.map g := by
  induction xs generalizing i with
  | nil => rfl
  | cons x xs ih =>
    cases i with
    | zero => simp [modifyAt, h]
    | succ i => simp [modifyAt, ih]

theorem setBoat_settles (s : State) (b : Nat) (f : BoatRecord → BoatRecord) (h : ∀ r, (f r).lasting = r.lasting) :
    Settles s (s.setBoat b f) := by
  unfold State.setBoat
  split
  · exact Settles.refl s
  · exact { Settles.refl s with
      keeps := (setTracker_keeps _ _).mono
      roster := modifyAt_map _ _ h _ _ }

theorem liftFin_settles (r floor : Nat) (s : State) : Settles s (liftFin r floor s) := by
  unfold liftFin
  split
  · exact Settles.refl s
  · split
    · exact ((decideMotion_settles s _ _ _).trans (Settles.of_keeps (setRunout_keeps _ _ _).mono)).trans
        (callReport_settles _ _)
    · exact Settles.refl s

theorem refreshSteps_settles (g : Nat) (s : State) : Settles s (refreshSteps g s) :=
  eachOf_settles (fun b s => setBoat_settles s b (fun x => { x with nextStep := s.firstStepAfter b s.clock })
    fun _ => rfl) _ _

theorem recomputeFloor_settles (r : Nat) (s : State) : Settles s (recomputeFloor r s) := by
  unfold recomputeFloor
  split
  · exact Settles.refl s
  · dsimp only
    split
    · exact refreshSteps_settles _ _
    · exact ((refreshSteps_settles _ s).trans (Settles.of_keeps (setRunout_keeps _ _ _).mono)).trans
        (liftFin_settles _ _ _)

theorem takeProfiles_settles (s : State) : Settles s (takeProfiles s) := by
  unfold takeProfiles
  exact (((Settles.of_keeps (setBrake_keeps s _).mono).trans
    (eachOf_settles (fun r s => recomputeFloor_settles r s) _ _)).trans (callReport_settles _ _)).trans
    (askImage_settles _ _ _)

theorem reseatWork_settles (g : Nat) (s : State) : Settles s (reseatWork g s) :=
  eachOf_settles (fun r s => by
    split
    · exact recomputeFloor_settles _ _
    · exact Settles.refl s) _ _

theorem stallStop_settles (c : Nat) (s : State) : Settles s (stallStop c s) := by
  unfold stallStop
  split
  · exact Settles.refl s
  · split
    · exact ((decideMotion_settles s _ _ _).trans (Settles.of_keeps (setConveyor_keeps _ _ _).mono)).trans
        (callReport_settles _ _)
    · exact Settles.refl s

theorem recomputeStall_settles (c : Nat) (s : State) : Settles s (recomputeStall c s) := by
  unfold recomputeStall
  split
  · exact Settles.refl s
  · have h : Settles s (s.setConveyor c fun x => { x with stalled := s.stallCondition c }) :=
      Settles.of_keeps (setConveyor_keeps _ _ _).mono
    dsimp only
    split
    · exact h.trans (stallStop_settles _ _)
    · exact h

theorem shadowWork_settles (s0 s : State) : Settles s (shadowWork s0 s) := by
  unfold shadowWork
  refine (eachOf_settles (fun r s => ?_) indices4 s).trans (eachOf_settles (fun c s => ?_) indices4 _)
  · split
    · exact Settles.refl s
    · exact Settles.of_keeps (updateFinTimer_keeps _ _).mono
  · split
    · exact Settles.refl s
    · unfold speedShadowChanged
      split
      · exact stallStop_settles _ _
      · exact Settles.refl s

theorem brakeWork_settles (s0 s : State) : Settles s (brakeWork s0 s) := by
  unfold brakeWork
  have h : Settles s (eachOf recomputeStall indices4 (shadowWork s0
      (eachOf (fun r t => if runoutTouched s0 s r then recomputeFloor r t else t) indices4 s))) := by
    refine ((eachOf_settles (fun r t => ?_) indices4 s).trans (shadowWork_settles _ _)).trans
      (eachOf_settles (fun c t => recomputeStall_settles c t) _ _)
    split
    · exact recomputeFloor_settles _ _
    · exact Settles.refl t
  dsimp only
  split
  · exact h.trans (takeProfiles_settles _)
  · exact h

theorem unitWork_settles (s0 s : State) : Settles s (unitWork s0 s) :=
  ((brakeWork_settles s0 s).trans (Settles.of_keeps (pacerWork_keeps _ _).mono)).trans (askChanged_settles _ _)

theorem setEntries_settles (s : State) (es : List HeldEntry)
    (h : (es.map HeldEntry.lasting).Sublist (s.hold.entries.map HeldEntry.lasting)) : Settles s (s.setEntries es) := by
  unfold State.setEntries
  split
  · exact Settles.refl s
  · have k : Settles s (s.setHold ⟨es⟩) :=
      { Settles.refl s with
        keeps := (setHold_keeps s _).mono
        entries := h }
    exact k.trans (askImage_settles _ _ _)

theorem setEntries_tracker (s : State) (es : List HeldEntry) : (s.setEntries es).tracker = s.tracker :=
  (setEntries_keeps s es .tracker (by decide)).symm

theorem askImage_hold (s : State) (i : ImageItem) (c : Bool) : (s.askImage i c).hold = s.hold :=
  (askImage_keeps s i c .hold (by decide)).symm

/-- A request for an item waits once it has been asked for. -/
theorem askImage_asksFor (s : State) (i : ImageItem) (c : Bool) :
    (s.askImage i c).passage.upkeep.any (·.asksFor i) = true := by
  unfold State.askImage
  split
  · assumption
  · simp [UpkeepRequest.asksFor]

theorem setEntries_entries (s : State) (es : List HeldEntry) : (s.setEntries es).hold.entries = es := by
  unfold State.setEntries
  split
  · next h => exact h.symm
  · rw [askImage_hold]
    rfl

/-- Every change of the hold queue's list asks for its image (R69). -/
theorem setEntries_asksFor (s : State) (es : List HeldEntry) (h : es ≠ s.hold.entries) :
    (s.setEntries es).passage.upkeep.any (·.asksFor .holdQueue) = true := by
  unfold State.setEntries
  rw [if_neg h]
  exact askImage_asksFor _ _ _

theorem removeHeld_settles (s : State) (w : WordRef) : Settles s (s.removeHeld w) :=
  setEntries_settles _ _ (List.Sublist.map _ List.filter_sublist)

theorem addReservation_settles (s : State) (r : Reservation) (hr : s.holdsReservation r.boat = false) :
    Settles s (s.addReservation r) :=
  { Settles.refl s with
    keeps := (addReservation_keeps s r).mono
    reservations := List.prefix_append _ _
    steady := fun b hb x hx e => by
      rcases List.mem_append.mp hx with hx | hx
      · exact hx
      · rw [List.mem_singleton] at hx
        rw [hx] at e
        rw [e, hb] at hr
        exact absurd hr (by decide) }

theorem perform_settles (h : HeldEntry) (v : Nat) (amended : Bool) (r : Option Reservation) (s : State)
    (hr : ∀ x, r = some x → s.holdsReservation x.boat = false) : Settles s (perform h v amended r s) := by
  unfold perform
  cases r with
  | none => exact (removeHeld_settles _ _).trans (decideMotion_settles _ _ _ _)
  | some r =>
    have hw : (s.removeHeld h.word).holdsReservation r.boat = false := by
      have ht : (s.removeHeld h.word).tracker = s.tracker := setEntries_tracker _ _
      unfold State.holdsReservation
      rw [ht]
      exact hr r rfl
    exact (((removeHeld_settles s _).trans (addReservation_settles _ r hw)).trans (unitWork_settles _ _)).trans
      (decideMotion_settles _ _ _ _)

theorem endHeld_settles (h : HeldEntry) (o : HoldOutcome) (r : Option Reason) (s : State) :
    Settles s (endHeld h o r s) := (callReport_settles s _).trans (removeHeld_settles _ _)

theorem judgeDestination_reserves_unreserved {s : State} {g : Nat} {x : Reservation}
    (h : s.judgeDestination g = .pass (some x)) : s.holdsReservation x.boat = false := by
  unfold State.judgeDestination at h
  dsimp only at h
  (repeat' split at h) <;> cases h
  exact Bool.eq_false_of_not_eq_true (by assumption)

theorem judgeRelease_reserves_unreserved {s : State} {g v : Nat} {x : Reservation}
    (h : s.judgeRelease g v = .pass (some x)) : s.holdsReservation x.boat = false := by
  unfold State.judgeRelease at h
  generalize hd : s.judgeDestination g = j at h
  (repeat' split at h) <;> first | cases h; done | exact judgeDestination_reserves_unreserved (hd.trans h)

/-- A verdict creates a reservation only for a boat that holds none (R58 steps 8 and 11). -/
theorem judge_reserves_unreserved {s : State} {w : WordRef} {v : Nat} {x : Reservation}
    (h : s.judge w v = .pass (some x)) : s.holdsReservation x.boat = false := by
  unfold State.judge at h
  split at h
  · exact judgeRelease_reserves_unreserved h
  all_goals
    simp only [State.judgeRoute, State.judgeFin, State.judgeSpeed, State.judgeRaise] at h
    (repeat' split at h) <;> cases h

theorem examineEntry_settles (h : HeldEntry) (s : State) : Settles s (examineEntry h s) := by
  unfold examineEntry
  split
  · next hj => exact perform_settles _ _ _ _ _ fun x hx => judge_reserves_unreserved (hx ▸ hj)
  · exact perform_settles _ _ _ _ _ fun _ hx => nomatch hx
  · next reason _ =>
    refine setEntries_settles _ _ ?_
    have : (s.hold.entries.map fun x => if x.word = h.word then { x with reason := reason } else x).map
        HeldEntry.lasting = s.hold.entries.map HeldEntry.lasting := by
      rw [List.map_map]
      refine List.map_congr_left fun x _ => ?_
      simp only [Function.comp_apply]
      split <;> rfl
    rw [this]
  · exact endHeld_settles _ _ _ _

theorem examine_settles (s : State) : Settles s (examine s) := eachOf_settles (fun h s => examineEntry_settles h s) _ _

theorem dwellWork_settles (s0 s : State) : Settles s (dwellWork s0 s) :=
  eachOf_settles (fun g s => by
    split
    · exact eachOf_settles (fun b s => setBoat_settles s b (fun x => { x with dwell := x.dwell.restart s.clock })
        fun _ => rfl) _ _
    · exact Settles.refl s) _ _

/-- All that a hand-on can do (R6, R51). -/
theorem handOn_settles (s0 s : State) : Settles s (handOn s0 s) := by
  unfold handOn
  have h := (dwellWork_settles s0 s).trans (unitWork_settles s0 _)
  dsimp only
  split
  · exact h.trans (examine_settles _)
  · exact h

/-! ## What a hand-on leaves readable -/

theorem Settles.queue {s t : State} (h : Settles s t) (g : Nat) : t.queue g = s.queue g := by
  unfold State.queue State.segment
  rw [h.segments]

theorem Settles.faulted {s t : State} (h : Settles s t) (g : Nat) : t.faulted g = s.faulted g := by
  unfold State.faulted State.segment
  rw [h.segments]

theorem Settles.boat {s t : State} (h : Settles s t) (b : Nat) : (t.boat b).lasting = (s.boat b).lasting := by
  cases b with
  | zero => rfl
  | succ n =>
    have := congrArg (fun l => l.getD n BoatRecord.vacant.lasting) h.roster
    simpa only [State.boat, List.getD_map] using this

theorem Settles.config {s t : State} (h : Settles s t) : t.config = s.config := by
  unfold State.config
  rw [show s.loader = t.loader from h.keeps .loader (by decide)]

theorem Settles.memory {s t : State} (h : Settles s t) : t.memory = s.memory :=
  (h.keeps .memory (by decide)).symm

theorem Settles.shadow {s t : State} (h : Settles s t) (w : WordRef) : t.shadow w = s.shadow w := by
  unfold State.shadow
  rw [show s.verdict = t.verdict from h.keeps .verdict (by decide)]

theorem Settles.ride {s t : State} (h : Settles s t) : t.ride = s.ride := (h.keeps .ride (by decide)).symm

theorem Settles.clock {s t : State} (h : Settles s t) : t.clock = s.clock := (h.keeps .clock (by decide)).symm

/-! ## The end of an event -/

/-- What the end of an event leaves in the Passage Unit: requests for images are added, and the wait count may return to 0. -/
structure Asks (p q : PassageUnit) : Prop where
  motion      : q.motion = p.motion
  port        : q.port = p.port
  access      : q.access = p.access
  upkeep      : p.upkeep <+: q.upkeep
  response    : q.response = p.response
  refusals    : q.refusals = p.refusals
  lastRefusal : q.lastRefusal = p.lastRefusal

theorem Asks.refl (p : PassageUnit) : Asks p p := ⟨rfl, rfl, rfl, List.prefix_refl _, rfl, rfl, rfl⟩

theorem Asks.trans {p q r : PassageUnit} (h : Asks p q) (k : Asks q r) : Asks p r :=
  ⟨k.motion.trans h.motion, k.port.trans h.port, k.access.trans h.access, h.upkeep.trans k.upkeep,
    k.response.trans h.response, k.refusals.trans h.refusals, k.lastRefusal.trans h.lastRefusal⟩

theorem askImage_asks (s : State) (i : ImageItem) (c : Bool) : Asks s.passage (s.askImage i c).passage := by
  unfold State.askImage
  split
  · exact Asks.refl _
  · exact { Asks.refl _ with upkeep := List.prefix_append _ _ }

theorem eachOf_asks {α : Type} {f : α → State → State} (h : ∀ x s, Asks s.passage (f x s).passage) (xs : List α)
    (s : State) : Asks s.passage (eachOf f xs s).passage := by
  induction xs generalizing s with
  | nil => exact Asks.refl _
  | cons x xs ih => exact (h x s).trans (ih _)

theorem finish_asks (s0 s : State) : Asks s.passage (finish s0 s).passage := by
  unfold finish
  have h : Asks s.passage (askChanged s0 s).passage := eachOf_asks (fun i s => askImage_asks s i false) _ _
  dsimp only
  split
  · exact h.trans { Asks.refl _ with }
  · exact h

/-- Every part but the Passage Unit is as the effect of the event left it. -/
theorem finish_same (s0 s : State) :
    (finish s0 s).pending = s.pending ∧ (finish s0 s).clock = s.clock ∧ (finish s0 s).resetAsserted = s.resetAsserted ∧
      (finish s0 s).sensePin = s.sensePin ∧ (finish s0 s).memory = s.memory ∧ (finish s0 s).verdict = s.verdict ∧
      (finish s0 s).hold = s.hold ∧ (finish s0 s).tracker = s.tracker ∧ (finish s0 s).berth = s.berth ∧
      (finish s0 s).brake = s.brake ∧ (finish s0 s).line = s.line ∧ (finish s0 s).ride = s.ride ∧
      (finish s0 s).directive = s.directive ∧ (finish s0 s).report = s.report ∧ (finish s0 s).loader = s.loader := by
  have h := finish_keeps s0 s
  exact ⟨(h .pending (by decide)).symm, (h .clock (by decide)).symm, (h .resetAsserted (by decide)).symm,
    (h .sensePin (by decide)).symm, (h .memory (by decide)).symm, (h .verdict (by decide)).symm,
    (h .hold (by decide)).symm, (h .tracker (by decide)).symm, (h .berth (by decide)).symm,
    (h .brake (by decide)).symm, (h .line (by decide)).symm, (h .ride (by decide)).symm,
    (h .directive (by decide)).symm, (h .report (by decide)).symm, (h .loader (by decide)).symm⟩

/-- An event that is taken answers the state that its effect leaves, finished. -/
theorem event_taken {s : State} {enabled : Bool} {effect : State → State} (hr : s.resetAsserted = false)
    (he : enabled = true) : event s enabled effect = .next (finish s (effect s)) := by
  unfold event
  rw [hr, he]
  rfl

/-- An event that is not taken changes nothing. -/
theorem event_idle {s : State} {enabled : Bool} {effect : State → State}
    (h : s.resetAsserted = true ∨ enabled = false) : event s enabled effect = .next s := by
  unfold event
  rcases h with h | h <;> simp [h]

end Sys2Proof.Machine
end

