-- ==== Sys2Proof/Laws/Finish.lean ====
section
/-!
SUPPORT. What `finish` leaves in each field, what a record called for adds to the records that wait, and what a directive
that the Directive Unit takes comes to.
-/

namespace Sys2Proof.Machine

set_option Elab.async false

/-! ## The end of an event: only image requests are added -/

section
variable (s0 s : State)
@[simp]
theorem finish_pending : (finish s0 s).pending = s.pending := (finish_same s0 s).1
@[simp]
theorem finish_clock : (finish s0 s).clock = s.clock := (finish_same s0 s).2.1
@[simp]
theorem finish_resetAsserted : (finish s0 s).resetAsserted = s.resetAsserted := (finish_same s0 s).2.2.1
@[simp]
theorem finish_sensePin : (finish s0 s).sensePin = s.sensePin := (finish_same s0 s).2.2.2.1
@[simp]
theorem finish_memory : (finish s0 s).memory = s.memory := (finish_same s0 s).2.2.2.2.1
@[simp]
theorem finish_verdict : (finish s0 s).verdict = s.verdict := (finish_same s0 s).2.2.2.2.2.1
@[simp]
theorem finish_hold : (finish s0 s).hold = s.hold := (finish_same s0 s).2.2.2.2.2.2.1
@[simp]
theorem finish_tracker : (finish s0 s).tracker = s.tracker := (finish_same s0 s).2.2.2.2.2.2.2.1
@[simp]
theorem finish_berth : (finish s0 s).berth = s.berth := (finish_same s0 s).2.2.2.2.2.2.2.2.1
@[simp]
theorem finish_brake : (finish s0 s).brake = s.brake := (finish_same s0 s).2.2.2.2.2.2.2.2.2.1
@[simp]
theorem finish_line : (finish s0 s).line = s.line := (finish_same s0 s).2.2.2.2.2.2.2.2.2.2.1
@[simp]
theorem finish_ride : (finish s0 s).ride = s.ride := (finish_same s0 s).2.2.2.2.2.2.2.2.2.2.2.1
@[simp]
theorem finish_directive : (finish s0 s).directive = s.directive := (finish_same s0 s).2.2.2.2.2.2.2.2.2.2.2.2.1
@[simp]
theorem finish_report : (finish s0 s).report = s.report := (finish_same s0 s).2.2.2.2.2.2.2.2.2.2.2.2.2.1
@[simp]
theorem finish_loader : (finish s0 s).loader = s.loader := (finish_same s0 s).2.2.2.2.2.2.2.2.2.2.2.2.2.2
@[simp]
theorem finish_motion : (finish s0 s).passage.motion = s.passage.motion := (finish_asks s0 s).motion
@[simp]
theorem finish_port : (finish s0 s).passage.port = s.passage.port := (finish_asks s0 s).port
@[simp]
theorem finish_access : (finish s0 s).passage.access = s.passage.access := (finish_asks s0 s).access
@[simp]
theorem finish_response : (finish s0 s).passage.response = s.passage.response := (finish_asks s0 s).response
@[simp]
theorem finish_refusals : (finish s0 s).passage.refusals = s.passage.refusals := (finish_asks s0 s).refusals
@[simp]
theorem finish_lastRefusal : (finish s0 s).passage.lastRefusal = s.passage.lastRefusal := (finish_asks s0 s).lastRefusal
theorem finish_upkeep : s.passage.upkeep <+: (finish s0 s).passage.upkeep := (finish_asks s0 s).upkeep
@[simp]
theorem finish_segment (g) : (finish s0 s).segment g = s.segment g := by unfold State.segment; rw [finish_tracker]
@[simp]
theorem finish_queue (g) : (finish s0 s).queue g = s.queue g := by unfold State.queue; rw [finish_segment]
@[simp]
theorem finish_faulted (g) : (finish s0 s).faulted g = s.faulted g := by unfold State.faulted; rw [finish_segment]
@[simp]
theorem finish_boat (b) : (finish s0 s).boat b = s.boat b := by cases b <;> simp [State.boat]
@[simp]
theorem finish_eye (e) : (finish s0 s).eye e = s.eye e := by simp [State.eye]
@[simp]
theorem finish_node (p) : (finish s0 s).node p = s.node p := by cases p <;> simp [State.node]
@[simp]
theorem finish_shadow (w) : (finish s0 s).shadow w = s.shadow w := by simp [State.shadow]
@[simp]
theorem finish_runout (r) : (finish s0 s).runout r = s.runout r := by simp [State.runout]
@[simp]
theorem finish_berthLive (r) : (finish s0 s).berthLive r = s.berthLive r := by simp [State.berthLive]
end
/-! ## Records that wait -/

theorem upkeep_reports {p q : List UpkeepRequest} (h : p <+: q) (f : UpkeepRequest → Option Report) :
    p.filterMap f <+: q.filterMap f := by
  obtain ⟨r, rfl⟩ := h
  rw [List.filterMap_append]
  exact List.prefix_append _ _

theorem waiting_prefix {s t : State} (h : s.passage.upkeep <+: t.passage.upkeep) :
    s.waitingReports <+: t.waitingReports := upkeep_reports h _

/-- A record called for while the ring has room waits behind the others. -/
theorem callReport_room {s : State} (h : s.ringHasRoom) (r : Report) :
    (s.callReport r).waitingReports = s.waitingReports ++ [r] := by
  unfold State.callReport State.waitingReports
  simp [h.1, h.2]

/-! ## Directives -/

/-- A directive that can be dispatched is, and the event ends there. -/
theorem execRequest_takes {s : State} {k : DirectiveKind} {r : Request} (h : s.Takes k) (w : r.wellFormed = true) :
    execRequest k r s = .next (finish s (dispatch k r.tag r.args s)) := by
  unfold execRequest takeRequest
  rw [if_pos w, event_taken h.live (by simpa using h.loaded)]
  unfold request
  rw [h.free]

/-- An answer stands as the last result. -/
theorem answer_answers (s u : State) (tag : BitVec 16) (k : DirectiveKind) (o : ResultOutcome) (r : Option Reason)
    (d : List Nat) (h : u.directive = s.directive) : s.Answers (finish s (u.answer tag k.code o r d)) tag k o r d := by
  simp [State.Answers, State.answer, h]

/-- An answer after a change adds nothing to what the change reaches but the result. -/
theorem answer_after {s u : State} {P : List Part} (tag : BitVec 16) (k : Nat) (o : ResultOutcome) (r : Option Reason)
    (d : List Nat) (h : Keeps P s u) (hp : [Part.passage, .directive] ⊆ P) :
    Keeps P s (finish s (u.answer tag k o r d)) :=
  (h.next (answer_keeps _ _ _ _ _ _) (fun x hx => hp (by simp_all))).next (finish_keeps _ _) (fun x hx => hp (by simp_all))

end Sys2Proof.Machine
end

