-- ==== Sys2Proof/Laws/HandOn.lean ====
section
/-!
SUPPORT. What the shared operations behind a hand-on do, said once each: several records called for in turn, the withdrawal
of a performance, the image requests of a list of items, the restart of dwell clocks.
-/

namespace Sys2Proof.Machine

set_option Elab.async false

/-! ## Records in turn (R180) -/

theorem ringTakes_one (s : State) : s.ringTakes 1 ↔ s.ringHasRoom := by
  simp [State.ringTakes, State.ringHasRoom]

theorem ringTakes_mono {s : State} {m n : Nat} (h : s.ringTakes n) (le : m ≤ n) : s.ringTakes m :=
  ⟨h.1, fun k hk => h.2 k (hk.trans_le le)⟩

theorem ringHasRoom_of_takes {s : State} {n : Nat} (h : s.ringTakes (n + 1)) : s.ringHasRoom :=
  (ringTakes_one s).mp (ringTakes_mono h (by omega))

/-- A record called for while the ring takes it and `n` more waits behind the others, and the ring takes `n` more. -/
theorem callReport_takes {s : State} {n : Nat} (h : s.ringTakes (n + 1)) (r : Report) :
    (s.callReport r).ringTakes n ∧ (s.callReport r).waitingReports = s.waitingReports ++ [r] := by
  refine ⟨?_, callReport_room (ringHasRoom_of_takes h) r⟩
  have room := ringHasRoom_of_takes h
  have hr : (s.callReport r).report =
      { s.report with assigned := (s.report.assigned + 1) % s.config.ringCount, gap := false } := by
    unfold State.callReport
    simp [room.1, room.2]
  have hl : (s.callReport r).loader = s.loader := (callReport_settles s r).keeps .loader (by decide) |>.symm
  have hc : (s.callReport r).config = s.config := (callReport_settles s r).config
  refine ⟨by rw [State.configured, hl]; exact h.1, fun k hk => ?_⟩
  rw [hr, hc]
  have := h.2 (k + 1) (by omega)
  rwa [show s.report.assigned + (k + 1) + 1 = s.report.assigned + 1 + (k + 1) by omega, Nat.add_mod,
    ← Nat.mod_mod (s.report.assigned + 1), ← Nat.add_mod] at this

/-! ## The withdrawal of a performance (R76) -/

/-- With no performance for the boat waiting, nothing is withdrawn. -/
theorem withdrawPerformance_idle {b : Nat} {s : State} (h : ∀ m ∈ s.passage.motion, m.performsFor b = false) :
    withdrawPerformance b s = s := by
  have : s.passage.motion.find? (·.performsFor b) = none :=
    List.find?_eq_none.mpr fun m hm => by simp [h m hm]
  unfold withdrawPerformance
  rw [this]

/-- The performance of the boat's reservation leaves the MOTION class, and its HOLD-END record is called for. -/
theorem withdrawPerformance_waits {b : Nat} {s : State} {h : HeldEntry} (w : s.PerformanceWaits b h) :
    withdrawPerformance b s = (s.setPassage { s.passage with
      motion := s.passage.motion.filter fun x => !x.performsFor b }).callReport (s.endedReport h) := by
  obtain ⟨before, m, after, hm, none_before, bank, origin⟩ := w
  have performs : m.performsFor b = true := by simp [MotionWrite.performsFor, origin, bank]
  have found : s.passage.motion.find? (·.performsFor b) = some m := by
    rw [hm, List.find?_append, List.find?_eq_none.mpr fun n hn => by simp [none_before n hn]]
    simp [performs]
  unfold withdrawPerformance
  rw [found]
  simp only [MotionWrite.entry?, origin]
  rfl

/-- A withdrawal leaves the other motion writes in their order. -/
theorem withdrawPerformance_motion (b : Nat) (s : State) :
    (withdrawPerformance b s).passage.motion = s.passage.motion.filter fun m => !m.performsFor b := by
  have hr (s : State) (r : Report) : (s.callReport r).passage.motion = s.passage.motion := by
    unfold State.callReport
    dsimp only
    (repeat' split) <;> rfl
  unfold withdrawPerformance
  split
  · next h =>
    have := List.find?_eq_none.mp h
    exact (List.filter_eq_self.mpr fun m hm => by simpa using this m hm).symm
  · dsimp only
    split
    · exact hr _ _
    · rfl

/-! ## Image requests (R172) -/

/-- An item for which no request waits is asked for behind the others. -/
theorem askImage_new {s : State} {i : ImageItem} (h : ¬ s.passage.upkeep.any (·.asksFor i) = true) (c : Bool) :
    s.askImage i c = s.setPassage { s.passage with upkeep := s.passage.upkeep ++ [.image i c] } := by
  unfold State.askImage
  rw [if_neg h]

/-- Items asked for in turn, none twice: a request is added for each for which none waits. -/
theorem askImages (is : List ImageItem) (nodup : is.Nodup) (s : State) :
    eachOf (fun i s => s.askImage i false) is s = s.setPassage { s.passage with
      upkeep := s.passage.upkeep ++ (is.filter fun i => !s.passage.upkeep.any (·.asksFor i)).map (.image · false) } := by
  induction is generalizing s with
  | nil => simp [eachOf, State.setPassage]
  | cons i is ih =>
    rw [List.nodup_cons] at nodup
    unfold eachOf
    rw [ih nodup.2]
    by_cases h : s.passage.upkeep.any (·.asksFor i) = true
    · simp [State.askImage, h]
    · have other : is.filter (fun j => !(s.askImage i false).passage.upkeep.any (·.asksFor j)) =
          is.filter fun j => !s.passage.upkeep.any (·.asksFor j) := by
        refine List.filter_congr fun j hj => ?_
        have ne : (i == j) = false := beq_eq_false_iff_ne.mpr fun e => nodup.1 (e ▸ hj)
        rw [askImage_new h, State.setPassage_passage, List.any_append]
        show (!(_ || ((i == j) || false))) = _
        rw [ne, Bool.or_false, Bool.or_false]
      rw [other, List.filter_cons_of_pos (by simpa using h), askImage_new h]
      simp [State.setPassage]

/-! ## Dwell clocks (R45) -/

/-- A roster record after another one, or the same one, has been changed. -/
theorem setBoat_boat (s : State) (b c : Nat) (f : BoatRecord → BoatRecord) (h : f .vacant = .vacant) :
    (s.setBoat b f).boat c = if c = b then f (s.boat c) else s.boat c := by
  have get (xs : List BoatRecord) (n k : Nat) :
      (modifyAt f xs n).getD k .vacant = if k = n then f (xs.getD k .vacant) else xs.getD k .vacant := by
    induction xs generalizing n k with
    | nil => simp [modifyAt, h]
    | cons x xs ih =>
      cases n with
      | zero => cases k <;> simp [modifyAt]
      | succ n =>
        cases k with
        | zero => simp [modifyAt]
        | succ k => simpa [modifyAt] using ih n k
  cases b with
  | zero => cases c <;> simp [State.setBoat, State.boat, h]
  | succ n =>
    cases c with
    | zero => simp [State.boat]
    | succ k => simpa [State.setBoat, State.boat] using get s.tracker.roster n k

/-- The dwell clocks of a segment's boats that run are set running from the ride clock; every other boat stands. -/
theorem restartDwell_boat (g : Nat) (s : State) (c : Nat) :
    (restartDwell g s).boat c =
      if c ∈ s.queue g then { s.boat c with dwell := (s.boat c).dwell.restart s.clock } else s.boat c := by
  have fold (bs : List Nat) (s : State) :
      (eachOf (fun b s => s.setBoat b fun x => { x with dwell := x.dwell.restart s.clock }) bs s).boat c =
        if c ∈ bs then { s.boat c with dwell := (s.boat c).dwell.restart s.clock } else s.boat c := by
    induction bs generalizing s with
    | nil => simp [eachOf]
    | cons b bs ih =>
      have clock : (s.setBoat b fun x => { x with dwell := x.dwell.restart s.clock }).clock = s.clock :=
        (setBoat_keeps s b _ .clock (by decide)).symm
      unfold eachOf
      rw [ih, clock, setBoat_boat s b c _ rfl]
      have twice : ((s.boat c).dwell.restart s.clock).restart s.clock = (s.boat c).dwell.restart s.clock := by
        cases (s.boat c).dwell <;> rfl
      by_cases e : c = b
      · subst e
        by_cases m : c ∈ bs <;> simp [m, twice]
      · simp [e]
  exact fold _ _

end Sys2Proof.Machine
end

