-- ==== Sys2Proof/Laws/Memory.lean ====
section
/-!
SUPPORT. Image memory: every store keeps the canonical form, and a byte stored is the byte read. Every later proof about
memory cites these and unfolds no store.
-/

namespace Sys2Proof.Machine

set_option Elab.async false

/-! ## The canonical form -/

theorem Memory.wfFrom_mono {l k : Nat} {m : Memory} (h : Memory.wfFrom k m = true) (le : l ≤ k) :
    Memory.wfFrom l m = true := by
  cases m with
  | nil => rfl
  | cons x m =>
    obtain ⟨a, b⟩ := x
    simp only [Memory.wfFrom, Bool.and_eq_true, decide_eq_true_eq] at h ⊢
    exact ⟨⟨le_trans le h.1.1, h.1.2⟩, h.2⟩

theorem Memory.write_wfFrom {low k : Nat} {v : Byte} {m : Memory} (h : Memory.wfFrom low m = true) (le : low ≤ k) :
    Memory.wfFrom low (Memory.write m k v) = true := by
  induction m generalizing low with
  | nil =>
    unfold Memory.write
    split
    · rfl
    · simp_all [Memory.wfFrom]
  | cons x m ih =>
    obtain ⟨a, b⟩ := x
    have h' := h
    simp only [Memory.wfFrom, Bool.and_eq_true, decide_eq_true_eq] at h'
    unfold Memory.write
    split
    · next lt =>
      split
      · exact h
      · next nz =>
        simp only [Memory.wfFrom, Bool.and_eq_true, decide_eq_true_eq]
        exact ⟨⟨le, nz⟩, ⟨lt, h'.1.2⟩, h'.2⟩
    · split
      · next eq =>
        split
        · exact Memory.wfFrom_mono h'.2 (by omega)
        · next nz =>
          simp only [Memory.wfFrom, Bool.and_eq_true, decide_eq_true_eq]
          exact ⟨⟨le, nz⟩, eq ▸ h'.2⟩
      · simp only [Memory.wfFrom, Bool.and_eq_true, decide_eq_true_eq]
        exact ⟨h'.1, ih h'.2 (by omega)⟩

theorem Memory.write_wf {m : Memory} (h : m.wf = true) (k : Nat) (v : Byte) : (Memory.write m k v).wf = true :=
  Memory.write_wfFrom h (Nat.zero_le k)

theorem Memory.writeBytes_wf {m : Memory} (h : m.wf = true) (a : Nat) (bs : List Byte) :
    (Memory.writeBytes m a bs).wf = true := by
  induction bs generalizing m a with
  | nil => exact h
  | cons b bs ih => exact ih (Memory.write_wf h a b) (a + 1)

theorem Memory.writeLanes_wf {m : Memory} (h : m.wf = true) (a : Nat) (lanes : Lanes) (w : Word) :
    (Memory.writeLanes m a lanes w).wf = true := by
  have put {m : Memory} (h : m.wf = true) (i : Nat) :
      (if lanes.getLsbD i then Memory.write m (a + i) (laneByte w i) else m).wf = true := by
    split
    · exact Memory.write_wf h _ _
    · exact h
  exact put (put (put (put h 0) 1) 2) 3

theorem Memory.writeWord_wf {m : Memory} (h : m.wf = true) (a : Nat) (w : Word) :
    (Memory.writeWord m a w).wf = true := Memory.writeLanes_wf h a 15 w

/-- Writing an image item keeps the canonical form. -/
theorem writeItem_wf {s : State} (h : s.memory.wf = true) (i : ImageItem) (c : Bool) :
    (writeItem s i c).wf = true := by
  unfold writeItem
  dsimp only
  split
  · have h2 (n : Nat) (bs cs : List Byte) (k : Nat) :
        (Memory.writeBytes (Memory.writeBytes s.memory n bs) k cs).wf = true :=
      Memory.writeBytes_wf (Memory.writeBytes_wf h _ _) _ _
    split
    · exact Memory.writeBytes_wf (h2 _ _ _ _) _ _
    · exact h2 _ _ _ _
  · exact Memory.writeBytes_wf (Memory.writeBytes_wf h _ _) _ _
  all_goals exact Memory.writeBytes_wf h _ _

/-- The machine after reset has memory and store in canonical form. -/
theorem reset_memoryCanonical : State.reset.memory.wf = true ∧ State.reset.loader.store.wf = true := ⟨rfl, rfl⟩

/-! ## Reading what was stored -/

theorem Memory.read_below {l k : Nat} {m : Memory} (h : Memory.wfFrom l m = true) (lt : k < l) :
    Memory.read m k = Config.unlistedByte := by
  induction m generalizing l with
  | nil => rfl
  | cons x m ih =>
    obtain ⟨a, b⟩ := x
    simp only [Memory.wfFrom, Bool.and_eq_true, decide_eq_true_eq] at h
    unfold Memory.read
    rw [if_neg (by omega)]
    exact ih h.2 (by omega)

theorem Memory.read_writeFrom {l : Nat} {m : Memory} (h : Memory.wfFrom l m = true) (k j : Nat) (v : Byte) :
    Memory.read (Memory.write m k v) j = if j = k then v else Memory.read m j := by
  induction m generalizing l with
  | nil =>
    unfold Memory.write
    split
    · next z =>
      split
      · simpa [Memory.read] using z.symm
      · rfl
    · simp only [Memory.read]
      split <;> rename_i c
      · rw [if_pos c.symm]
      · rw [if_neg (fun e => c e.symm)]
  | cons x m ih =>
    obtain ⟨a, b⟩ := x
    have h' := h
    simp only [Memory.wfFrom, Bool.and_eq_true, decide_eq_true_eq] at h'
    unfold Memory.write
    split
    · next lt =>
      split
      · next z =>
        split
        · next e =>
          subst e
          unfold Memory.read
          rw [if_neg (by omega), Memory.read_below h'.2 (by omega), z]
        · rfl
      · rw [Memory.read]
        split <;> rename_i c
        · rw [if_pos c.symm]
        · rw [if_neg (fun e => c e.symm)]
    · split
      · next eq =>
        split
        · next z =>
          split
          · next e =>
            rw [Memory.read_below h'.2 (by omega), z]
          · next e =>
            rw [Memory.read, if_neg (by omega)]
        · rw [Memory.read]
          split <;> rename_i c
          · rw [if_pos c.symm]
          · rw [if_neg (fun e => c e.symm), Memory.read, if_neg (by omega)]
      · rw [Memory.read]
        split <;> rename_i c
        · rw [if_neg (by omega), Memory.read, if_pos c]
        · rw [ih h'.2, Memory.read, if_neg c]

/-- A byte stored is read at its address, and every other address reads as before. -/
theorem Memory.read_write {m : Memory} (h : m.wf = true) (k j : Nat) (v : Byte) :
    Memory.read (Memory.write m k v) j = if j = k then v else Memory.read m j := Memory.read_writeFrom h k j v

/-- A byte outside the stored bytes reads as before. -/
theorem Memory.read_writeBytes_outside {m : Memory} (h : m.wf = true) (a : Nat) (bs : List Byte) (j : Nat)
    (out : j < a ∨ a + bs.length ≤ j) : Memory.read (Memory.writeBytes m a bs) j = Memory.read m j := by
  induction bs generalizing m a with
  | nil => rfl
  | cons b bs ih =>
    have out' : j < a + 1 ∨ a + 1 + bs.length ≤ j := by
      rcases out with o | o
      · exact Or.inl (by omega)
      · simp only [List.length_cons] at o
        exact Or.inr (by omega)
    rw [Memory.writeBytes, ih (Memory.write_wf h a b) _ out', Memory.read_write h,
      if_neg (by simp only [List.length_cons] at out; omega)]

/-- Each byte of a run of stored bytes is read at its address. -/
theorem Memory.read_writeBytes_at {m : Memory} (h : m.wf = true) (a : Nat) (bs : List Byte) (i : Nat)
    (lt : i < bs.length) : Memory.read (Memory.writeBytes m a bs) (a + i) = bs[i] := by
  induction bs generalizing m a i with
  | nil => exact absurd lt (by simp)
  | cons b bs ih =>
    cases i with
    | zero =>
      rw [Memory.writeBytes, Memory.read_writeBytes_outside (Memory.write_wf h a b) _ _ _ (Or.inl (by omega)),
        Memory.read_write h, if_pos (by omega)]
      rfl
    | succ i =>
      have := ih (Memory.write_wf h a b) (a + 1) i (by simpa using lt)
      rw [Memory.writeBytes, show a + (i + 1) = a + 1 + i by omega, this]
      rfl

/-- A lane that is enabled holds its byte of the word, every other address reads as before (R166). -/
theorem Memory.read_writeLanes {m : Memory} (h : m.wf = true) (a : Nat) (lanes : Lanes) (w : Word) (j : Nat) :
    Memory.read (Memory.writeLanes m a lanes w) j =
      if a ≤ j ∧ j < a + 4 ∧ lanes.getLsbD (j - a) = true then laneByte w (j - a) else Memory.read m j := by
  have put {m : Memory} (h : m.wf = true) (i : Nat) :
      Memory.read (if lanes.getLsbD i then Memory.write m (a + i) (laneByte w i) else m) j =
        if j = a + i ∧ lanes.getLsbD i = true then laneByte w i else Memory.read m j := by
    by_cases c : lanes.getLsbD i = true
    · simp only [c, if_true, and_true]
      exact Memory.read_write h _ _ _
    · simp [c]
  have keep {m : Memory} (h : m.wf = true) (i : Nat) :
      (if lanes.getLsbD i then Memory.write m (a + i) (laneByte w i) else m).wf = true := by
    split
    · exact Memory.write_wf h _ _
    · exact h
  unfold Memory.writeLanes
  dsimp only
  rw [put (keep (keep (keep h 0) 1) 2) 3, put (keep (keep h 0) 1) 2, put (keep h 0) 1, put h 0]
  by_cases hj : a ≤ j ∧ j < a + 4
  · obtain ⟨i, rfl⟩ : ∃ i, j = a + i := ⟨j - a, by omega⟩
    have hi : i < 4 := by omega
    simp only [Nat.add_sub_cancel_left]
    interval_cases i <;> simp
  · rw [if_neg (by omega), if_neg (by omega), if_neg (by omega), if_neg (by omega), if_neg (by omega)]

/-- The word stored at an address is the word read there. -/
theorem Memory.readWord_writeWord {m : Memory} (h : m.wf = true) (a : Nat) (w : Word) :
    Memory.readWord (Memory.writeWord m a w) a = w := by
  unfold Memory.readWord Memory.writeWord
  have at' (i : Nat) (hi : i < 4) : Memory.read (Memory.writeLanes m a 15 w) (a + i) = laneByte w i := by
    rw [Memory.read_writeLanes h, if_pos]
    · rw [Nat.add_sub_cancel_left]
    · refine ⟨by omega, by omega, ?_⟩
      rw [Nat.add_sub_cancel_left]
      interval_cases i <;> rfl
  rw [at' 3 (by omega), at' 2 (by omega), at' 1 (by omega), show Memory.read (Memory.writeLanes m a 15 w) a =
    laneByte w 0 from at' 0 (by omega)]
  unfold laneByte
  refine BitVec.eq_of_getLsbD_eq fun i hi => ?_
  interval_cases i <;>
    simp only [BitVec.getLsbD_append, BitVec.getLsbD_setWidth, BitVec.getLsbD_ushiftRight] <;> simp

end Sys2Proof.Machine
end

