-- ==== Sys2Proof/Tests/Slice0.lean ====
section
/-!
SUPPORT. The sitting's own tests: ill-formed commands that the checks of WellFormed refuse, known answers of the CRCs and
the codes, and for every statement that has premises a concrete state and operands that meet them, clause by clause.
-/

namespace Sys2Proof.Tests

set_option Elab.async false

open Sys2Proof.Machine

/-! ## Commands that cannot be sent -/

theorem test_beats_below_one : (Instr.controllerAccessArrival ⟨0, false, 15, 0, []⟩).wellFormed = false := by decide
theorem test_beats_above_four : (Instr.controllerAccessArrival ⟨0, false, 15, 5, []⟩).wellFormed = false := by decide
theorem test_write_without_data : (Instr.controllerAccessArrival ⟨0, true, 15, 1, []⟩).wellFormed = false := by decide
theorem test_write_with_too_much_data : (Instr.controllerAccessArrival ⟨0, true, 15, 1, [1, 2]⟩).wellFormed = false := by
  decide
theorem test_read_with_data : (Instr.controllerAccessArrival ⟨0, false, 15, 1, [1]⟩).wellFormed = false := by decide
theorem test_sixteen_arguments : (Instr.reseat ⟨0, List.replicate 16 0⟩).wellFormed = false := by decide
theorem test_fifteen_arguments : (Instr.reseat ⟨0, List.replicate 15 0⟩).wellFormed = true := by decide
theorem test_burst_of_four : (Instr.controllerAccessArrival ⟨0, true, 0, 4, [1, 2, 3, 4]⟩).wellFormed = true := by decide

/-! ## Known answers -/

/-- The catalogued check values of the two CRCs over the nine digits. -/
theorem test_crc_check_values :
    crc8 [0x31, 0x32, 0x33, 0x34, 0x35, 0x36, 0x37, 0x38, 0x39] = 0xF4 ∧
      crc16 [0x31, 0x32, 0x33, 0x34, 0x35, 0x36, 0x37, 0x38, 0x39] = 0x29B1 := by decide +kernel
theorem test_word_codes :
    wordCode ⟨.release, 5⟩ = 5 ∧ wordCode ⟨.route, 1⟩ = 0x4001 ∧ wordCode ⟨.fin, 2⟩ = 0x8002 ∧
      wordCode ⟨.speed, 3⟩ = 0xC003 := by decide
theorem test_record_bytes :
    recordBytes true 0x01020304 (.passage 7 3 .reserved true 1 2) =
      [0x81, 7, 3, 0x80, 4, 3, 2, 1, 1, 2, 0, 0, 0, 0, 0, 0] := by decide
theorem test_little_endian_word :
    let m := Memory.writeWord [] 64 0x0A0B0C0D
    m.readWord 64 = 0x0A0B0C0D ∧ m.read 64 = 0x0D ∧ m.read 67 = 0x0A := by
  refine ⟨?_, ?_, ?_⟩ <;> decide +kernel
theorem test_report_fields :
    (parseReport [0x3C, 0x42, 0x24, 0x21, 0x43, 9, 0x3B, 0xC2, 1, 0]).position = 2 ∧
      (parseReport [0x3C, 0x42, 0x24, 0x21, 0x43, 9, 0x3B, 0xC2, 1, 0]).kind = 1 ∧
      (parseReport [0x3C, 0x42, 0x24, 0x21, 0x43, 9, 0x3B, 0xC2, 1, 0]).eyes = [.clear, .blocked, .fault, .clear] ∧
      (parseReport [0x3C, 0x42, 0x24, 0x21, 0x43, 9, 0x3B, 0xC2, 1, 0]).counters = [1, 2, 3, 4] ∧
      (parseReport [0x3C, 0x42, 0x24, 0x21, 0x43, 9, 0x3B, 0xC2, 1, 0]).slow = 450 := by decide
theorem test_no_word_spells_a_command : decodeTableWord 32 0 = none := by decide

/-! ## A small flume

Berth 0 launches over edge 0 to the lift 1, the crest 2, the run-out 3 and the gated split 4, which leads back to the berth
over edge 4 or past it to the lift over edge 5. -/

/-- A segment with every option absent. -/
def plainSegment (k : SegmentKind) (capacity : Nat) : SegmentCfg :=
  { SegmentCfg.unconfigured with kind := k, capacity := capacity }

def flume : FlumeConfig :=
  { holdLimit := 10000, finLag := 300, launchInterval := 12000, runMax := 4, t1 := 300, t2 := 600, ringCount := 16
    nodes := [.general, .berth, .brake]
    segments :=
      [{ plainSegment .berth 1 with gated := true, weigh := true, berth := some 0, releaseWindow := 5000 },
       { plainSegment .lift 2 with conveyor := some 0 },
       { plainSegment .crest 1 with conveyor := some 0 },
       { plainSegment .runout 2 with runout := some 0, feed := some 2, minDwell := 100, maxDwell := some 30000 },
       { plainSegment .queue 2 with gated := true, route := some 0, releaseWindow := 4000 }]
    edges := [⟨0, 1, 2, 0, true, true⟩, ⟨1, 2, 1, 0, false, false⟩, ⟨2, 3, 1, 1, false, false⟩,
      ⟨3, 4, 3, 0, false, false⟩, ⟨4, 0, 1, 2, false, false⟩, ⟨4, 1, 1, 3, false, false⟩]
    runSet := [1, 2, 3], maxSpeeds := [800, 0, 0, 0]
    profiles := ⟨[⟨0, 3⟩, ⟨1500, 0⟩], [⟨1000, 2⟩], [⟨0, 4⟩, ⟨3000, 1⟩]⟩
    map := ⟨⟨0x10000, 128⟩, ⟨0x10080, 16⟩, ⟨0x10090, 16⟩, ⟨0x100A0, 16⟩, ⟨0x11000, 1024⟩, ⟨0x12000, 256⟩,
      [⟨0x13000, 32⟩, ⟨0, 0⟩, ⟨0, 0⟩, ⟨0, 0⟩]⟩ }

/-- Every word of the small flume at a value, the fin word at 2, the speed word at 300. -/
def flumeShadows (release : Nat) : Shadows :=
  { release := [some release, none, none, none, some release] ++ List.replicate 27 none
    route := [some 0, none, none, none], fin := [some 2, none, none, none], speed := [some 300, none, none, none] }

def activeNode (k : NodeKind) : NodeEntry :=
  { NodeEntry.blank with expected := some k, discovered := some k, state := .active }

/-- The small flume with the line UP, slot 1 open and the model empty. -/
def still : State :=
  let s := install flume State.reset
  { s with
    resetAsserted := false
    clock := 100000
    verdict := { shadows := flumeShadows 0, last := none }
    line := { s.line with
      state := .up, slot := some 1
      nodes := [activeNode .general, activeNode .berth, activeNode .brake] ++ List.replicate 13 .blank }
    loader := { s.loader with phase := .finished, source := .store } }

/-- A boat stands at the tail of a segment. -/
def stand (b g : Nat) (s : State) : State :=
  let s := s.arrive b g
  s.setQueue g (s.queue g ++ [b])

/-- Boats 5 and 6 in the split, boat 7 in the lift, boat 8 in the run-out. -/
def afloat : State := stand 8 3 (stand 7 1 (stand 6 4 (stand 5 4 still)))

/-- The state with a ride state and the permit that goes with it. -/
def riding (r : RideState) (s : State) : State := s.enterState r

def calm (r : RideState) : State := riding r still
def busy (r : RideState) : State := riding r afloat

/-- Boat 5 holds the reservation over edge 4 into the berth. -/
def reserved (r : RideState) : State := riding r (afloat.addReservation ⟨5, 4, 104000⟩)

/-- The waiting controller access. -/
def asking (a : Access) (s : State) : State := s.setPassage { s.passage with access := some a }

def single (addr : Addr) (v : Word) : Access := ⟨addr, true, 15, 1, [v]⟩

def probe (r : RideState) (a : Access) : State := asking a (calm r)

theorem probe_grants (r : RideState) (a : Access) : (probe r a).Grants a := ⟨rfl, rfl, rfl⟩

/-- A row's command answers a next state. -/
theorem row_next (r : AccessRow) (s : State) : ∃ t, exec r.command s = .next t := by
  have h : ∃ t, performRow r s = .next t := by
    unfold performRow event
    split
    · exact ⟨_, rfl⟩
    · split <;> exact ⟨_, rfl⟩
  cases r <;> exact h

theorem test_flume_is_laid : flume.Laid where
  segments := by decide
  nodes := by decide
  ring := by decide
  ends := by decide
  exits := by decide
  launches := by decide
  indices := by
    intro x hx i hi n hn
    subst hn
    simp only [flume, plainSegment, SegmentCfg.unconfigured, List.mem_cons, List.not_mem_nil, or_false] at hx
    rcases hx with rfl | rfl | rfl | rfl | rfl <;> simp_all
  profiles := by
    unfold Profiles.Staged
    decide

/-- RosterLaw as a check over the segments and the 32 boats. -/
def rosterCheck (s : State) : Bool :=
  decide (s.tracker.roster.length = 32) &&
    (s.tracker.segments.zipIdx.all fun x => x.1.queue.zipIdx.all fun y =>
      (s.boat y.1).status == .placed && (s.boat y.1).segment == some x.2 && (s.boat y.1).position == y.2 + 1) &&
    (List.range 33).all fun b => (s.boat b).status != .placed || s.tracker.segments.any fun l => l.queue.contains b

theorem rosterLaw_of_check {s : State} (h : rosterCheck s = true) : s.RosterLaw := by
  simp only [rosterCheck, Bool.and_eq_true, decide_eq_true_eq, List.all_eq_true, Bool.or_eq_true, List.any_eq_true,
    bne_iff_ne, ne_eq, beq_iff_eq, List.contains_iff_mem] at h
  obtain ⟨⟨size, stands⟩, placed⟩ := h
  refine ⟨size, fun g i b hb => ?_, fun b hb => ?_⟩
  · unfold State.queue State.segment at hb
    cases hg : s.tracker.segments[g]? with
    | none => simp [List.getD_eq_getElem?_getD, hg] at hb
    | some l =>
      simp only [List.getD_eq_getElem?_getD, hg, Option.getD_some] at hb
      have := stands (l, g) (by simpa [List.mem_zipIdx_iff_getElem?] using hg) (b, i)
        (by simpa [List.mem_zipIdx_iff_getElem?] using hb)
      exact ⟨this.1.1, this.1.2, this.2⟩
  · have lt : b < 33 := by
      by_contra k
      obtain ⟨n, rfl⟩ : ∃ n, b = n + 1 := ⟨b - 1, by omega⟩
      have : s.tracker.roster[n]? = none := List.getElem?_eq_none (by omega)
      simp [State.boat, List.getD_eq_getElem?_getD, this, BoatRecord.vacant] at hb
    rcases placed b (List.mem_range.mpr lt) with k | ⟨l, hl, hm⟩
    · exact absurd hb k
    · obtain ⟨g, hg⟩ := List.mem_iff_getElem?.mp hl
      exact ⟨g, by simpa [State.queue, State.segment, List.getD_eq_getElem?_getD, hg] using hm⟩

/-- A bank of shadows is none at every word that the small flume does not bind. -/
def shadowsFit (b : Bank) (l : List (Option Nat)) : Bool := l.zipIdx.all fun x => flume.bound ⟨b, x.2⟩ || x.1.isNone

/-- What TablesLaw asks of the tables of a state that runs the small flume. -/
def tablesFit (s : State) : Bool :=
  decide (s.tracker.segments.length = 5 ∧ s.tracker.eyes.length = 6) &&
    decide (s.verdict.shadows.release.length = 32 ∧ s.verdict.shadows.route.length = 4 ∧
      s.verdict.shadows.fin.length = 4 ∧ s.verdict.shadows.speed.length = 4) &&
    (shadowsFit .release s.verdict.shadows.release && shadowsFit .route s.verdict.shadows.route &&
      shadowsFit .fin s.verdict.shadows.fin && shadowsFit .speed s.verdict.shadows.speed) &&
    decide (s.berth.berths.map (·.index) = [0] ∧ s.berth.pacer.isSome = true ∧
      s.brake.runouts.map (·.index) = [0] ∧ s.brake.conveyors.map (·.index) = [0]) &&
    decide (s.line.nodes.map (·.expected) = flume.nodes.map some ++ List.replicate 13 none)

theorem none_of_shadowsFit {b : Bank} {l : List (Option Nat)} (h : shadowsFit b l = true) {i : Nat}
    (hb : flume.bound ⟨b, i⟩ = false) : l.getD i none = none := by
  cases hi : l[i]? with
  | none => simp [List.getD_eq_getElem?_getD, hi]
  | some v =>
    have := List.all_eq_true.mp h (v, i) (by simpa [List.mem_zipIdx_iff_getElem?] using hi)
    simp only [hb, Bool.false_or, Option.isNone_iff_eq_none] at this
    simp [List.getD_eq_getElem?_getD, hi, this]

/-- What TablesLaw asks of a state that runs the small flume. -/
theorem tablesLaw_of_flume {s : State} (ha : s.loader.active = some flume) (hp : s.loader.pendingImage = none)
    (hl : tablesFit s = true) (hr : s.ride.state ≠ .loading ∧ s.ride.state ≠ .offline .noConfig) : s.TablesLaw := by
  simp only [tablesFit, Bool.and_eq_true, decide_eq_true_eq] at hl
  obtain ⟨⟨⟨⟨hs, hv⟩, ⟨⟨h1, h2⟩, h3⟩, h4⟩, hb, hq, hk, hy⟩, hn⟩ := hl
  have hc : s.configured = true := by simp [State.configured, ha]
  have hf : s.config = flume := by simp [State.config, ha]
  have hlen : s.line.nodes.length = 16 := by simpa [flume] using congrArg List.length hn
  exact {
    active := fun c h => by rw [ha] at h; cases h; exact test_flume_is_laid
    pending := fun i h => by rw [hp] at h; cases h
    segments := by rw [hf, hs.1]; rfl
    eyes := by rw [hf, hs.2]; rfl
    shadows := hv
    unbound := by
      rintro ⟨b, i⟩ h
      rw [hf] at h
      cases b
      · exact none_of_shadowsFit h1 h
      · exact none_of_shadowsFit h2 h
      · exact none_of_shadowsFit h3 h
      · exact none_of_shadowsFit h4 h
    berths := by rw [hf, hb]; decide
    pacer := by rw [hq, hc]
    runouts := by rw [hf, hk]; decide
    conveyors := by rw [hf, hy]; decide
    nodes := hlen
    expected := fun p h => by
      have k : (s.line.nodes.map (·.expected))[p]? = some (s.node (p + 1)).expected := by
        rw [List.getElem?_map, List.getElem?_eq_getElem (by omega)]
        simp [State.node, List.getD_eq_getElem?_getD, List.getElem?_eq_getElem (show p < s.line.nodes.length by omega)]
      rw [hn] at k
      rw [hf, ← Option.some_inj, ← k]
      clear k
      revert h p
      decide
    loading := fun h => absurd h hr.1
    noConfig := fun h => absurd h hr.2
    others := fun _ _ => hc
    records := fun h => by rw [hc] at h; cases h }

theorem still_tables : tablesFit still = true := by decide +kernel
theorem afloat_tables : tablesFit afloat = true := by decide +kernel

theorem calm_tables {r : RideState} (h : r ≠ .loading ∧ r ≠ .offline .noConfig) : (calm r).TablesLaw :=
  tablesLaw_of_flume rfl rfl still_tables h

theorem busy_tables {r : RideState} (h : r ≠ .loading ∧ r ≠ .offline .noConfig) : (busy r).TablesLaw :=
  tablesLaw_of_flume (s := riding r afloat) (show afloat.loader.active = _ by decide +kernel)
    (show afloat.loader.pendingImage = _ by decide +kernel) afloat_tables h

/-! ## States that keep every law -/

/-- `followsFrom` as a check. -/
def followsCheck (n : Nat) : Nat → List (Nat × Nat) → Nat → Bool
  | p, [], q => p == q
  | p, (slot, next) :: rest, q => slot == p && next == (p + 1) % n && followsCheck n next rest q

theorem follows_of_check {n : Nat} {l : List (Nat × Nat)} : ∀ {p q : Nat}, followsCheck n p l q = true →
    followsFrom n p l q := by
  induction l with
  | nil => exact fun h => beq_iff_eq.mp h
  | cons x l ih =>
    intro p q h
    simp only [followsCheck, Bool.and_eq_true, beq_iff_eq] at h
    exact ⟨h.1.1, h.1.2, ih h.2⟩

/-- What HoldLaw, ReservationLaw and MotionLaw ask of the entries, the reservations and the motion writes. -/
def queuesFit (s : State) : Bool :=
  let outside := s.ride.state != .running
  decide (s.hold.entries.length ≤ 8 ∧ (s.hold.entries.map (·.word)).Nodup) &&
    (s.hold.entries.all fun h => s.config.bound h.word) &&
    (!outside || (s.hold.entries.isEmpty && s.unfinished.all (·.entry?.isNone))) &&
    decide (s.tracker.reservations.map (·.boat)).Nodup &&
    (s.tracker.reservations.all fun r => (s.config.edges[r.edge]?).any fun e =>
      (s.config.segment e.source).gated && (s.queue e.source).head? == some r.boat) &&
    (s.passage.motion.all fun m => m.entry?.isSome || m.word.bank != .release || m.value == 0) &&
    s.passage.port.all fun m => m.entry?.isSome || m.oldMap || m.word.bank == .route ||
      (s.shadow m.word).all fun v => towardSafe m.word.bank v m.value

/-- What FloorLaw asks of a run-out's record. -/
def runoutFits (s : State) (x : RunoutLive) : Bool :=
  decide (x.floor ≤ 4) &&
    ((s.shadow ⟨.fin, x.index⟩).all fun v => decide (x.floor ≤ v) || x.waitingLift.any (decide <| x.floor ≤ ·)) &&
    x.waitingLift.all fun w => s.unfinished.any fun m =>
      m.word == ⟨.fin, x.index⟩ && m.value == w && m.origin == .floorLift x.index && !m.oldMap

/-- What FloorLaw asks of a motion write that has not completed. -/
def moveFits (s : State) (m : MotionWrite) : Bool :=
  (match m.origin with
    | .floorLift r => m.word == ⟨.fin, r⟩
    | .performance .. | .autoClose | .lapseClose | .stallStop _ | .safe => true) &&
    (m.word.bank != .fin || m.oldMap || (s.shadow m.word).isSome || m.value == 4) &&
    (m.entry?.isNone || m.word.bank == .release || m.word.bank == .speed)

/-- FloorLaw as a check. -/
def floorsFit (s : State) : Bool :=
  (decide (∀ x ∈ s.brake.active.light ++ s.brake.active.medium ++ s.brake.active.heavy, x.stage ≤ 4) &&
    decide (∀ x ∈ s.brake.buffer.light ++ s.brake.buffer.medium ++ s.brake.buffer.heavy, x.stage ≤ 4)) &&
    s.brake.runouts.all (runoutFits s) && s.unfinished.all (moveFits s) &&
    s.hold.entries.all fun h => h.word.bank == .release || h.word.bank == .speed

theorem floorLaw_of_check {s : State} (h : floorsFit s = true) : s.FloorLaw := by
  simp only [floorsFit, Bool.and_eq_true, decide_eq_true_eq, List.all_eq_true] at h
  obtain ⟨⟨⟨⟨active, buffer⟩, runouts⟩, moves⟩, held⟩ := h
  have run {r : Nat} {x : RunoutLive} (hx : s.runout r = some x) : runoutFits s x = true ∧ x.index = r :=
    ⟨runouts x (List.mem_of_find?_eq_some hx), by simpa using List.find?_some hx⟩
  have two {b : Bank} : (b == .release || b == .speed) = true ↔ b = .release ∨ b = .speed := by
    rw [Bool.or_eq_true, beq_iff_eq, beq_iff_eq]
  refine ⟨⟨active, buffer⟩, fun r x hx => ?_, fun r x v hx hv => ?_, fun r x w hx hw => ?_, fun m hm r ho => ?_,
    fun m hm hb hmap hs => ?_, fun h hh => two.mp (held h hh), fun m hm he => ?_⟩
  · have := (run hx).1
    simp only [runoutFits, Bool.and_eq_true, decide_eq_true_eq] at this
    exact this.1.1
  · obtain ⟨fit, rfl⟩ := run hx
    simp only [runoutFits, Bool.and_eq_true, Option.all_eq_true, Bool.or_eq_true, decide_eq_true_eq,
      Option.any_eq_true] at fit
    exact fit.1.2 v hv
  · obtain ⟨fit, rfl⟩ := run hx
    simp only [runoutFits, Bool.and_eq_true, Option.all_eq_true, List.any_eq_true, beq_iff_eq,
      Bool.not_eq_true'] at fit
    obtain ⟨m, hm, ⟨⟨⟨k1, k2⟩, k3⟩, k4⟩⟩ := fit.2 w hw
    exact ⟨m, hm, k1, k2, k3, k4⟩
  · have := moves m hm
    simp only [moveFits, ho, Bool.and_eq_true, beq_iff_eq] at this
    exact this.1.1
  · have := moves m hm
    simp only [moveFits, Bool.and_eq_true] at this
    simpa [hb, hmap, hs] using this.1.2
  · have := moves m hm
    simp only [moveFits, Bool.and_eq_true] at this
    have none : m.entry?.isNone = false := by cases h : m.entry? with
      | none => exact absurd h he
      | some _ => rfl
    exact two.mp (by simpa [none] using this.2)

/-- The laws as checks on a state that runs the small flume. -/
def soundCheck (s : State) : Bool :=
  (decide (s.memory.wf = true ∧ s.loader.store.wf = true) &&
    decide (s.ride.permit = true ↔ s.ride.state = .stopped ∨ s.ride.state = .running) && queuesFit s) &&
    (decide (s.loader.active = some flume ∧ s.loader.pendingImage = none) && tablesFit s &&
      decide (s.ride.state ≠ .loading ∧ s.ride.state ≠ .offline .noConfig) && rosterCheck s) &&
    decide (∀ g < s.config.segments.length, s.faulted g = false → s.load g ≤ (s.config.segment g).capacity) &&
    floorsFit s &&
    (decide (s.report.assigned < s.config.ringCount ∧ s.report.consumer < s.config.ringCount ∧
      s.report.published < s.config.ringCount) &&
      followsCheck s.config.ringCount s.report.published s.waitingRecords s.report.assigned) && !s.resetAsserted

theorem sound_of_check {s : State} (h : soundCheck s = true) : s.Sound := by
  simp only [soundCheck, Bool.and_eq_true, decide_eq_true_eq, Bool.not_eq_true'] at h
  obtain ⟨⟨⟨⟨⟨⟨⟨memory, permit⟩, queues⟩, ⟨⟨active, tables⟩, past⟩, roster⟩, capacity⟩, floors⟩, ring⟩, live⟩ := h
  simp only [queuesFit, Bool.and_eq_true, decide_eq_true_eq, List.all_eq_true, Bool.or_eq_true] at queues
  obtain ⟨⟨⟨⟨⟨⟨entries, bound⟩, outside⟩, single⟩, heads⟩, closes⟩, safe⟩ := queues
  have asserted : s.resetAsserted ≠ true := by simp [live]
  exact {
    memory := memory
    permit := permit
    hold := ⟨entries.1, entries.2, bound, fun k => by
      have ne : (s.ride.state != .running) = true := bne_iff_ne.mpr k
      simp only [ne, Bool.not_true, Bool.false_eq_true, false_or, List.isEmpty_iff, State.unfinished, List.mem_append,
        Option.mem_toList, Option.isNone_iff_eq_none] at outside
      exact ⟨outside.1, fun m hm => outside.2 m (Or.inr hm), fun m hm => outside.2 m (Or.inl hm)⟩⟩
    tables := tablesLaw_of_flume active.1 active.2 tables past
    roster := rosterLaw_of_check roster
    capacity := capacity
    reservations := ⟨single, fun r hr => by
      obtain ⟨e, he, k⟩ := (Option.any_eq_true _ _).mp (heads r hr)
      simp only [Bool.and_eq_true, beq_iff_eq] at k
      exact ⟨e, he, k.1, k.2⟩⟩
    motion := ⟨fun m hm he hb => by simpa [he, hb] using closes m hm, fun m hm he ho hb v hv => by
      simpa [he, ho, hb, hv] using (Option.all_eq_true _ _).mp safe m hm⟩
    floors := floorLaw_of_check floors
    ring := ⟨fun _ => ring.1, fun _ => follows_of_check ring.2⟩
    reset := ⟨fun k => absurd k asserted, fun k => absurd k asserted, fun k => absurd k asserted⟩ }

/-- Boats, a reservation, a held entry, a waiting record and a waiting lift, in RUNNING, with a command waiting. -/
def working : State :=
  let s := reserved .running
  let s := s.setHold ⟨[⟨⟨.speed, 0⟩, 600, false, 100000, 110000, .crest⟩]⟩
  let s := (s.decideMotion ⟨.fin, 0⟩ 4 (.floorLift 0)).callReport (.floorLift 0 4 2)
  { s with pending := [.lineLevelChange true] }

theorem test_working_is_sound : working.Sound := sound_of_check (by decide +kernel)

/-- A next state that passes a test. -/
def nextPasses (o : Host.Outcome State Fault Refusal) (test : State → Bool) : Bool :=
  match o with
  | .next t => test t
  | .fault _ | .refused _ => false

theorem next_of_passes {o : Host.Outcome State Fault Refusal} {test : State → Bool} (h : nextPasses o test = true) :
    ∃ t, o = .next t ∧ test t = true := by
  cases o with
  | next t => exact ⟨t, rfl, h⟩
  | fault f => cases h
  | refused r => cases h

theorem next_of {o : Host.Outcome State Fault Refusal} (h : nextPasses o (fun _ => true) = true) : ∃ t, o = .next t :=
  (next_of_passes h).imp fun _ h => h.1

/-- An event that is taken answers a next state. -/
theorem event_next {s : State} {g : Bool} {f : State → State} : ∃ t, event s g f = .next t := by
  unfold event
  split <;> exact ⟨_, rfl⟩

/-- What the statements about laws assume: a sound state and its step. -/
theorem test_laws_premises :
    working.Sound ∧ working.pending = [.lineLevelChange true] ∧ ∃ t, step working = .next t := by
  have h : working.pending = [.lineLevelChange true] := by decide +kernel
  refine ⟨test_working_is_sound, h, ?_⟩
  unfold step
  rw [h]
  simp only [exec, execLineLevelChange]
  exact event_next

/-! ## Premises: the step, RESET and LOADING -/

theorem test_step_premises :
    ({ State.reset with pending := [.resetRelease, .round] } : State).pending = .resetRelease :: [.round] := rfl
theorem test_idle_premises :
    State.reset.pending = [] ∧ State.reset.resetAsserted = true ∧ still.pending = [] ∧ still.resetAsserted = false := by
  decide +kernel
theorem test_encodable_premises :
    Instr.round.wellFormed = true ∧ (Instr.reseat ⟨0, List.replicate 16 0⟩).wellFormed = false := by decide +kernel
theorem test_frame_premises : ∃ t, exec .resetRelease State.reset = .next t := ⟨_, rfl⟩
theorem test_stores_premises :
    State.reset.memory.wf = true ∧ (∃ t, exec .resetRelease State.reset = .next t) ∧
      ¬ State.reset.storesTo .resetRelease 0 := ⟨rfl, ⟨_, rfl⟩, id⟩
theorem test_canonical_premises :
    working.memoryCanonical ∧ working.permitLaw ∧ ∃ t, step working = .next t :=
  ⟨test_working_is_sound.memory, test_working_is_sound.permit, test_laws_premises.2.2⟩

theorem test_under_reset_premises :
    State.reset.resetAsserted = true ∧
      (∃ t, exec (.controllerAccessArrival ⟨0, false, 15, 1, []⟩) State.reset = .next t) ∧
      (∃ t, exec (.ctrlResetSense true) State.reset = .next t) ∧ (∃ t, exec .round State.reset = .next t) :=
  ⟨rfl, ⟨_, rfl⟩, ⟨_, rfl⟩, ⟨_, rfl⟩⟩

/-- The berth of the small flume FAULTED, and boat 5 in the split. -/
def hurt (r : RideState) : State := faultSegment .early 0 (busy r)

theorem test_faulted_premises :
    soundingCommand .motionWriteGrant = false ∧ (∃ t, exec .motionWriteGrant (hurt .tripped) = .next t) ∧
      (hurt .tripped).faulted 0 = true ∧ (∃ t, exec (.reseat ⟨1, [4, 0]⟩) (hurt .tripped) = .next t) ∧
      (([4, 0] : List Word).head?.map (·.toNat)) ≠ some 0 ∧ (hurt .tripped).loader.pendingImage = none ∧
      (∃ t, exec (.resetTrip ⟨1, []⟩) (hurt .tripped) = .next t) := by
  refine ⟨rfl, ?_, by decide +kernel, ?_, by decide, by decide +kernel, ?_⟩
  · simp only [exec, execMotionWriteGrant]
    split
    · exact event_next
    · exact ⟨_, rfl⟩
  · simp only [exec, execReseat, execRequest]
    rw [if_pos (by decide)]
    exact event_next
  · simp only [exec, execResetTrip, execRequest]
    rw [if_pos (by decide)]
    exact event_next

/-- A RESEAT of segment 4 whose last argument, and a commit whose last words, UPKEEP reads next; segment 0 is FAULTED. -/
def reseating : State :=
  let s := (hurt .tripped).setDirective { (hurt .tripped).directive with argument := some ⟨1, .reseat, 2, [4]⟩ }
  s.setPassage { s.passage with upkeep := [.argument 2] }
def staging (r : RideState) : State :=
  let s := (hurt r).setDirective { (hurt r).directive with long := some (.commit 1 16 []) }
  s.setPassage { s.passage with upkeep := [.staging 0 4] }

theorem test_faulted_upkeep_premises :
    (∃ t, exec .triggerWrite (hurt .tripped) = .next t) ∧
    ((∃ t, exec .argumentReadComplete reseating = .next t) ∧ reseating.faulted 0 = true ∧
      reseating.upkeepGrant = some (.argument 2) ∧ reseating.directive.argument = some ⟨1, .reseat, 2, [4]⟩ ∧
      ((([4] : List Word) ++ [reseating.memory.readWord (0xFFF600 + 4 * 2)]).head?.map (·.toNat)) ≠ some 0) ∧
    ((∃ t, exec .stagingReadComplete (staging .stopped) = .next t) ∧ (staging .stopped).faulted 0 = true ∧
      (staging .tripped).ride.state = .tripped ∧ (staging .stopped).upkeepGrant = some (.staging 0 4) ∧
      ∃ check item, validate ([] ++ Memory.readBytes (staging .stopped).memory (0xFFF700 + 0) (4 * 4)) (some 16) =
        .invalid check item) := by
  refine ⟨row_next .trigger _, ⟨?_, ?_, ?_, ?_, ?_⟩, ⟨?_, ?_, ?_, ?_, 1, 0, ?_⟩⟩
  · simp only [exec, execArgumentReadComplete]
    split <;> first | exact event_next | exact ⟨_, rfl⟩
  case refine_6 =>
    simp only [exec, execStagingReadComplete]
    split <;> first | exact event_next | exact ⟨_, rfl⟩
  all_goals decide +kernel

/-- An image of two nodes and two queue segments, each with an edge to the other: 460 bytes. -/
def tinyImage : List Byte :=
  let z (n : Nat) : List Byte := List.replicate n 0
  [[72, 30, 60, 122, 1, 0, 0, 0, 204, 1, 0, 0, 84, 1, 0, 0, 16, 39, 0, 0, 44, 1, 0, 0, 224, 46, 0, 0, 4, 0, 0, 0],
   [44, 1, 0, 0, 88, 2, 0, 0, 16, 0, 0, 0, 2, 0, 0, 0, 2, 0, 0, 0, 2], z 27, [1, 0, 0, 0, 1, 0, 0, 0],
   [1, 1, 0, 255, 255, 255, 255, 255], z 24, [1, 1, 0, 255, 255, 255, 255, 255], z 25, [1, 1], z 13,
   [1, 0, 2], z 33, [1], z 31, [1], z 31, [1], z 96, [16, 1, 0, 0, 4], z 11, [32, 1, 0, 0, 1], z 74].flatten

/-- A validation accepts its image. -/
def Accepts : Validation → Bool
  | .valid _ => true
  | .invalid .. => false

theorem accepts_valid {v : Validation} (h : Accepts v = true) : ∃ i, v = .valid i := by
  cases v with
  | valid i => exact ⟨i, rfl⟩
  | invalid n i => cases h

set_option maxRecDepth 100000 in
theorem test_image_premises : ∃ i, validate tinyImage (some 460) = .valid i :=
  accepts_valid (by decide +kernel)

/-- LOADING before the read of a store. -/
def reading (store : Memory) : State :=
  { State.reset with
    resetAsserted := false
    loader := { State.reset.loader with phase := .reading, store := store } }

/-- The state after a LOADING that found no valid image. -/
def unset : State := riding (.offline .noConfig) { reading [] with loader := { State.reset.loader with phase := .finished } }

/-- What TablesLaw asks of a state that has no configuration in effect and the tables of RESET. -/
theorem tablesLaw_of_blank {s : State} (ha : s.loader.active = none ∧ s.loader.pendingImage = none)
    (ht : s.tracker = State.reset.tracker ∧ s.verdict = State.reset.verdict ∧ s.berth = State.reset.berth ∧
      s.brake = State.reset.brake ∧ s.line = State.reset.line ∧ s.passage.upkeep = [])
    (hr : (s.ride.state = .loading ∧ s.loader.phase ≠ .installed) ∨ s.ride.state = .offline .noConfig) :
    s.TablesLaw := by
  obtain ⟨h1, h2, h3, h4, h5, h6⟩ := ht
  have hc : s.configured = false := by simp [State.configured, ha.1]
  have hf : s.config = .empty := by simp [State.config, ha.1]
  exact {
    active := fun c h => by rw [ha.1] at h; cases h
    pending := fun i h => by rw [ha.2] at h; cases h
    segments := by rw [hf, h1]; rfl
    eyes := by rw [hf, h1]; rfl
    shadows := by rw [h2]; exact ⟨rfl, rfl, rfl, rfl⟩
    unbound := by
      rintro ⟨b, i⟩ _
      unfold State.shadow
      rw [h2]
      have k (n : Nat) : (List.replicate n (none : Option Nat)).getD i none = none := by
        rw [List.getD_eq_getElem?_getD, List.getElem?_replicate]
        split <;> rfl
      cases b
      · exact k 32
      · exact k 4
      · exact k 4
      · exact k 4
    berths := by rw [hf, h3]; decide
    pacer := by rw [hc, h3]; rfl
    runouts := by rw [hf, h4]; decide
    conveyors := by rw [hf, h4]; decide
    nodes := by rw [h5]; rfl
    expected := by
      unfold State.node
      rw [hf, h5]
      decide
    loading := fun h => by
      rcases hr with k | k
      · exact ⟨fun x => by (rw [hc] at x; cases x), fun x => absurd x k.2⟩
      · rw [k] at h; cases h
    noConfig := fun _ => hc
    others := fun x y => by
      rcases hr with k | k
      · exact absurd k.1 x
      · exact absurd k y
    records := fun _ => by unfold State.waitingRecords; rw [h6]; rfl }

theorem reading_tables (store : Memory) : (reading store).TablesLaw :=
  tablesLaw_of_blank ⟨rfl, rfl⟩ ⟨rfl, rfl, rfl, rfl, rfl, rfl⟩ (Or.inl ⟨rfl, nofun⟩)

/-- The read of the store after 20 ms. -/
def readingLate : State := { reading [] with clock := 20 }

theorem test_store_timeout_premises :
    readingLate.TablesLaw ∧ readingLate.resetAsserted = false ∧ readingLate.ride.state = .loading ∧
      readingLate.loader.phase = .reading ∧ 20 ≤ readingLate.clock ∧ (reading []).clock < 20 :=
  ⟨tablesLaw_of_blank ⟨rfl, rfl⟩ ⟨rfl, rfl, rfl, rfl, rfl, rfl⟩ (Or.inl ⟨rfl, nofun⟩), rfl, rfl, rfl, by decide, by decide⟩

theorem unset_tables : unset.TablesLaw :=
  tablesLaw_of_blank ⟨rfl, rfl⟩ ⟨rfl, rfl, rfl, rfl, rfl, rfl⟩ (Or.inr rfl)

set_option maxRecDepth 100000 in
theorem test_store_read_premises :
    (reading []).resetAsserted = false ∧ (reading []).ride.state = .loading ∧ (reading []).loader.phase = .reading ∧
      (∀ m, (reading m).TablesLaw) ∧ (∃ n i, validate (storeImage []) none = .invalid n i) ∧
      ∃ i, validate (storeImage (Memory.writeBytes [] 0 tinyImage)) none = .valid i :=
  ⟨rfl, rfl, rfl, reading_tables, ⟨1, 0, by decide +kernel⟩, accepts_valid (by decide +kernel)⟩

theorem test_loading_asks_premises : (reading []).passage.upkeep = [] := rfl

theorem test_reset_premises :
    State.reset.resetAsserted = true ∧ (probe .stopped (single 0x20000 1)).resetAsserted = false ∧
      still.passage.access = none ∧
      (probe .running ⟨0xFFFFF8, true, 15, 2, [1, 2]⟩).Grants ⟨0xFFFFF8, true, 15, 2, [1, 2]⟩ ∧
      Access.pastTop ⟨0xFFFFF8, true, 15, 2, [1, 2]⟩ = false ∧
      (∀ k ∈ Access.words ⟨0xFFFFF8, true, 15, 2, [1, 2]⟩,
        ((probe .running ⟨0xFFFFF8, true, 15, 2, [1, 2]⟩).classify k).burstable = true) ∧
      (probe .running (single 0x20000 1)).Grants (single 0x20000 1) ∧
      (∃ u, exec ((probe .running (single 0x20000 1)).rowOf (single 0x20000 1)).command
        (probe .running (single 0x20000 1)) = .next u) :=
  ⟨rfl, rfl, rfl, probe_grants _ _, by decide +kernel, by decide +kernel, probe_grants _ _, row_next _ _⟩

/-- LOADING with nothing left to write. -/
def loaded (phase : LoadPhase) : State :=
  let s := riding .loading still
  s.setLoader { s.loader with phase := phase }

theorem test_loading_ends_premises :
    ∀ phase, (loaded phase).resetAsserted = false ∧ (loaded phase).ride.state = .loading ∧
      (loaded phase).passage.motion = [] ∧ (loaded phase).passage.port = none ∧ (loaded phase).passage.upkeep = [] ∧
      (loaded phase).loader.phase = phase ∧ (loaded phase).configured = true ∧
      (loaded phase).report = ⟨0, 0, 0, false⟩ ∧ 16 ≤ (loaded phase).config.ringCount ∧
      (loaded phase).inService = false :=
  fun _ => ⟨rfl, rfl, rfl, rfl, rfl, rfl, rfl, rfl, (by decide : 16 ≤ flume.ringCount),
    (by decide +kernel : (riding .loading still).inService = false)⟩

/-! ## Premises: the controller port -/

/-- Every clause about the arbiter and its wait count: MOTION, UPKEEP forced at 16, PASSAGE at 15, UPKEEP alone, nothing; an
access granted with and without a waiting request; a grant and a completion of MOTION; and an UPKEEP request of each kind. -/
theorem test_arbiter_premises :
    let u (n : Nat) (m : List MotionWrite) (p : Option MotionWrite) (w : List UpkeepRequest) (a : Option Access) : PassageUnit :=
      { still.passage with motion := m, port := p, access := a, upkeep := w, upkeepWait := n }
    let move : MotionWrite := ⟨⟨.fin, 0⟩, 0x10090, 4, .safe, false⟩
    let a := single 0x20000 1
    let shows : List UpkeepRequest := [.image .ride false]
    (u 16 [move] (some move) shows (some a)).port ≠ none ∧ (u 16 [move] none shows (some a)).nextGrant = .motion ∧
      (u 16 [] none shows (some a)).nextGrant = .upkeep ∧ (u 15 [] none shows (some a)).nextGrant = .passage ∧
      (u 0 [] none shows none).nextGrant = .upkeep ∧ (u 0 [] none [] none).nextGrant = .none ∧
      (still.setPassage (u 15 [] none shows (some a))).passage.upkeep ≠ [] ∧ (probe .stopped a).passage.upkeep = [] ∧
      (∃ t, exec .motionWriteGrant (still.setPassage (u 3 [move] none shows none)) = .next t) ∧
      (∃ t, exec .motionWriteComplete (still.setPassage (u 3 [] (some move) shows none)) = .next t) ∧
      ∀ r ∈ [UpkeepRequest.record 15 true 7 (.lapse 1 2 3) 0, .image .ride false, .argument 1, .staging 0 4],
        (still.setPassage (u 16 [] none [r] (some a))).upkeepGrant = some r :=
  ⟨by decide +kernel, by decide +kernel, by decide +kernel, by decide +kernel, by decide +kernel, by decide +kernel,
    by decide +kernel, by decide +kernel, next_of (by decide +kernel), next_of (by decide +kernel), by decide +kernel⟩

theorem test_arbiter_grants (a : Access) (n : Nat) :
    (((probe .stopped a).setPassage { (probe .stopped a).passage with upkeepWait := n }).Grants a) := ⟨rfl, rfl, rfl⟩

theorem test_arrival_premises :
    Access.wellFormed ⟨0xFFFFFC, false, 0, 4, []⟩ = true ∧ still.resetAsserted = false ∧ still.passage.access = none ∧
      (probe .loading (single 0 1)).Grants (single 0 1) ∧ (probe .loading (single 0 1)).ride.state = .loading :=
  ⟨by decide +kernel, rfl, rfl, probe_grants _ _, rfl⟩

/-- Reads of one word and of a burst, in memory and through a vacant and an occupied window. -/
theorem test_read_premises :
    let a : Access := ⟨0xFFFFFC, false, 15, 1, []⟩
    let w : Access := ⟨0x13000, false, 15, 4, []⟩
    (probe .stopped a).Grants a ∧ (probe .stopped a).ride.state ≠ .loading ∧ a.write = false ∧ a.pastTop = false ∧
      (probe .stopped a).classify (a.word + 4 * 0) = .staging ∧
      (probe .stopped w).Grants w ∧ w.pastTop = false ∧ (probe .stopped w).classify (w.word + 4 * 3) = .window 0 12 ∧
      (probe .stopped w).windowBoat 0 = 0 ∧ (asking w (stand 9 0 still)).Grants w ∧
      (asking w (stand 9 0 still)).windowBoat 0 = 8 + 1 := by
  refine ⟨probe_grants _ _, by decide +kernel, rfl, by decide +kernel, by decide +kernel, probe_grants _ _,
    by decide +kernel, by decide +kernel, by decide +kernel, ⟨?_, ?_, ?_⟩, ?_⟩ <;> decide +kernel

theorem test_write_premises :
    let plain : Access := ⟨0x20000, true, 0, 1, [1]⟩
    let partialStay : Access := ⟨0x11010, true, 7, 1, [1]⟩
    (∀ a, (probe .stopped a).Grants a ∧ (probe .stopped a).ride.state ≠ .loading) ∧
      (probe .stopped plain).classify plain.word = .plain ∧
      (probe .stopped plain).classify 0xFFF604 = .directiveArea ∧ (probe .stopped plain).classify 0xFFF700 = .staging ∧
      partialStay.full = false ∧ (probe .stopped partialStay).classify partialStay.word = .stay 1 ∧
      (probe .stopped plain).classify 0xFFF044 = .consumer ∧ (probe .stopped plain).classify 0xFFF600 = .trigger ∧
      (probe .stopped plain).classify 0x11000 = .rosterPart ∧ (probe .stopped plain).classify 0x12000 = .ring ∧
      (probe .stopped plain).classify 0xFFF000 = .status ∧ (probe .stopped plain).classify 0xFFF680 = .resultArea := by
  refine ⟨fun a => ⟨probe_grants _ _, fun h => by cases h⟩, ?_, ?_, ?_, ?_, ?_, ?_, ?_, ?_, ?_, ?_, ?_⟩ <;>
    decide +kernel

/-- The ends of every class of words, with a configuration and with none. -/
theorem test_class_premises :
    State.reset.configured = false ∧ State.reset.classify 0x10000 = .plain ∧
      [0xFFF000, 0xFFF040, 0xFFF044, 0xFFF048, 0xFFF5FC, 0xFFF600, 0xFFF604, 0xFFF67C, 0xFFF680, 0xFFF6FC, 0xFFF700,
        0xFFFFFC].map still.classify =
        [.status, .status, .consumer, .status, .status, .trigger, .directiveArea, .directiveArea, .resultArea, .resultArea,
          .staging, .staging] ∧
      [0xFFFC, 0x10000, 0x1007C, 0x10080, 0x1008C, 0x10090, 0x100A0, 0x100AC, 0x100B0].map still.classify =
        [.plain, .guarded ⟨.release, 0⟩, .guarded ⟨.release, 31⟩, .guarded ⟨.route, 0⟩, .guarded ⟨.route, 3⟩,
          .guarded ⟨.fin, 0⟩, .guarded ⟨.speed, 0⟩, .guarded ⟨.speed, 3⟩, .plain] ∧
      [0x11000, 0x11010, 0x113F0, 0x113FC, 0x11400, 0x12000, 0x120FC, 0x12100, 0x13000, 0x1301C, 0x13020].map still.classify =
        [.rosterPart, .stay 1, .stay 32, .rosterPart, .plain, .ring, .ring, .plain, .window 0 0, .window 0 28, .plain] := by
  decide +kernel

theorem test_burst_premises :
    let top : Access := ⟨0xFFFFFC, true, 15, 2, [1, 2]⟩
    let good : Access := ⟨0x20000, true, 15, 4, [1, 2, 3, 4]⟩
    let owned : Access := ⟨0x11FFC, true, 15, 2, [1, 2]⟩
    let guarded : Access := ⟨0x1000C, true, 15, 2, [1, 1]⟩
    (∀ a, (probe .stopped a).Grants a ∧ (probe .stopped a).ride.state ≠ .loading) ∧
      top.dataOk = true ∧ top.pastTop = true ∧ good.dataOk = true ∧ good.pastTop = false ∧
      (∀ k ∈ good.words, ((probe .stopped good).classify k).burstable = true) ∧ owned.pastTop = false ∧
      (probe .stopped owned).classify 0x12000 = .ring ∧ (probe .stopped owned).classify 0x11FFC = .plain ∧
      guarded.dataOk = true ∧ guarded.pastTop = false ∧ guarded.words[0]? = some (guarded.word + 4 * 0) ∧
      (probe .stopped guarded).classify (guarded.word + 4 * 0) = .guarded ⟨.release, 3⟩ ∧
      guarded.data[0]? = some 1 := by
  refine ⟨fun a => ⟨probe_grants _ _, fun h => by cases h⟩, ?_, ?_, ?_, ?_, ?_, ?_, ?_, ?_, ?_, ?_, ?_, ?_, ?_⟩ <;>
    decide +kernel

theorem test_stay_premises :
    let a := single 0x113F0 1
    let w : Access := ⟨0x13010, true, 15, 1, [0]⟩
    (probe .stopped a).Grants a ∧ (probe .stopped a).RosterLaw ∧ a.full = true ∧
      (probe .stopped a).classify a.word = .stay 32 ∧
      (probe .stopped w).classify w.word = .window 0 16 ∧ (probe .stopped w).windowBoat 0 = 0 ∧
      (asking w (stand 32 0 still)).RosterLaw ∧ (asking w (stand 32 0 still)).windowBoat 0 = 32 ∧
      (asking w (stand 1 0 still)).windowBoat 0 = 1 ∧ (asking w (stand 1 0 still)).classify 0x13000 = .window 0 0 := by
  refine ⟨probe_grants _ _, rosterLaw_of_check ?_, ?_, ?_, ?_, ?_, rosterLaw_of_check ?_, ?_, ?_, ?_⟩ <;> decide +kernel

theorem test_consumer_premises :
    let a := single 0xFFF044 17
    (probe .running a).Grants a ∧ a.full = true ∧ (probe .running a).classify a.word = .consumer ∧
      (probe .running a).configured = true ∧ (probe .running a).ride.state ≠ .offline .noConfig := by
  refine ⟨probe_grants _ _, ?_, ?_, ?_, ?_⟩ <;> decide +kernel

/-- Triggers: kind 0, kind 13, STOP-NOW with an argument, a busy kind, and one with 15 arguments. -/
theorem test_trigger_premises :
    let s := probe .stopped (single 0xFFF600 0)
    let b := s.setDirective { s.directive with long := some (.commit 3 16 []) }
    s.Grants (single 0xFFF600 0) ∧ s.ride.state ≠ .loading ∧ s.classify 0xFFF600 = .trigger ∧ triggerKind 0 = 0 ∧
      DirectiveKind.ofCode (triggerKind 0x000D0001) = none ∧
      DirectiveKind.ofCode (triggerKind 0x01030001) = some .stopNow ∧ triggerCount 0x01030001 ≠ 0 ∧
      DirectiveKind.ofCode (triggerKind 0x00010001) = some .startRide ∧ b.busyFor .startRide = some (3 + 65536 * 11) ∧
      DirectiveKind.ofCode (triggerKind 0x0F080001) = some .reseat ∧ triggerCount 0x0F080001 = 15 ∧
      s.busyFor .reseat = none := by
  refine ⟨probe_grants _ _, ?_, ?_, ?_, ?_, ?_, ?_, ?_, ?_, ?_, ?_, ?_⟩ <;> decide +kernel

/-- What makes the Directive Unit busy, row by row. -/
theorem test_busy_premises :
    let s := calm .stopped
    let d := s.setLine { s.line with state := .discovering }
    s.directive.argument = none ∧ s.directive.long = none ∧ s.ride.drill = none ∧ s.line.state ≠ .discovering ∧
      (s.setDirective { s.directive with argument := some ⟨1, .setPace, 1, []⟩ }).directive.argument ≠ none ∧
      (s.setDirective { s.directive with long := some (.commit 3 16 []) }).directive.long = some (.commit 3 16 []) ∧
      (s.setRide { s.ride with drill := some ⟨2, .check, 3⟩ }).ride.drill = some ⟨2, .check, 3⟩ ∧
      d.line.state = .discovering ∧
      (d.setDirective { d.directive with long := some (.restartLine 9) }).directive.long = some (.restartLine 9) ∧
      triggerCount 0x00010001 = 0 ∧ s.busyFor .startRide = none := by
  refine ⟨?_, ?_, ?_, ?_, ?_, ?_, ?_, ?_, ?_, ?_, ?_⟩ <;> decide +kernel

/-- An argument phase with one word read, of two and of three. -/
def arguing (count : Nat) : State :=
  let s := still.setDirective { still.directive with argument := some ⟨1, .addBoat, count, [5]⟩ }
  s.setPassage { s.passage with upkeep := [.argument 2] }

theorem test_argument_premises :
    (arguing 2).resetAsserted = false ∧ (arguing 2).upkeepGrant = some (.argument 2) ∧
      (arguing 2).directive.argument = some ⟨1, .addBoat, 2, [5]⟩ ∧
      (arguing 3).upkeepGrant = some (.argument 2) ∧
      (arguing 3).directive.argument = some ⟨1, .addBoat, 3, [5]⟩ := by
  refine ⟨?_, ?_, ?_, ?_, ?_⟩ <;> decide +kernel

/-! ## Premises: verdicts -/

/-- A single write that the arbiter grants in a state. -/
theorem grantsWord_of {s : State} {w : WordRef} {a : Access}
    (h : s.resetAsserted = false ∧ s.passage.access = some a ∧ s.passage.nextGrant = .passage ∧ s.ride.state ≠ .loading ∧
      a.write = true ∧ a.beats = 1 ∧ s.classify a.word = .guarded w) : s.GrantsWord w a :=
  ⟨⟨h.1, h.2.1, h.2.2.1⟩, h.2.2.2.1, h.2.2.2.2.1, h.2.2.2.2.2.1, h.2.2.2.2.2.2⟩

/-- A partial write, a full write to an unbound word, and a value just out of range. -/
theorem test_form_premises :
    let p : Access := ⟨0x100A0, true, 14, 1, [0]⟩
    let u := single 0x10004 0
    let m := single 0x100A0 1001
    ((probe .stopped p).GrantsWord ⟨.speed, 0⟩ p ∧ p.full = false) ∧
      ((probe .stopped u).GrantsWord ⟨.release, 1⟩ u ∧ u.full = true ∧
        (probe .stopped u).config.bound ⟨.release, 1⟩ = false) ∧
      ((probe .stopped m).GrantsWord ⟨.speed, 0⟩ m ∧ (probe .stopped m).config.bound ⟨.speed, 0⟩ = true ∧
        inRange .speed m.value.toNat = false) := by
  refine ⟨⟨grantsWord_of ?_, ?_⟩, ⟨grantsWord_of ?_, ?_, ?_⟩, ⟨grantsWord_of ?_, ?_, ?_⟩⟩ <;> decide +kernel

/-- The fin word left at its shadow in TRIPPED; and one stage below it, away from safe. -/
theorem test_direction_premises :
    let k := single 0x10090 2
    let l := single 0x10090 1
    ((probe .tripped k).GrantsWord ⟨.fin, 0⟩ k ∧ (probe .tripped k).TablesLaw ∧ k.full = true ∧
      (probe .tripped k).config.bound ⟨.fin, 0⟩ = true ∧ inRange .fin k.value.toNat = true ∧
      (probe .tripped k).shadow ⟨.fin, 0⟩ = some 2 ∧ towardSafe .fin 2 k.value.toNat = true) ∧
    ((probe .tripped l).GrantsWord ⟨.fin, 0⟩ l ∧ (probe .tripped l).ride.state ≠ .running ∧
      towardSafe .fin 2 l.value.toNat = false) := by
  refine ⟨⟨grantsWord_of ?_, tablesLaw_of_flume ?_ ?_ ?_ ?_, ?_, ?_, ?_, ?_, ?_⟩, ⟨grantsWord_of ?_, ?_, ?_⟩⟩ <;>
    decide +kernel

/-- OPEN for a release word in RUNNING. -/
def open4 : Access := single 0x10010 1
def open0 : Access := single 0x10000 1

theorem opensClosed_of {s : State} {g : Nat} {a : Access}
    (h : s.resetAsserted = false ∧ s.passage.access = some a ∧ s.passage.nextGrant = .passage ∧ s.ride.state ≠ .loading ∧
      a.write = true ∧ a.beats = 1 ∧ s.classify a.word = .guarded ⟨.release, g⟩)
    (k : a.full = true ∧ a.value = 1 ∧ s.config.bound ⟨.release, g⟩ = true ∧ s.ride.state = .running ∧
      s.shadow ⟨.release, g⟩ ≠ some 1) : OpensClosed s g a :=
  ⟨grantsWord_of h, k.1, k.2.1, k.2.2.1, k.2.2.2.1, k.2.2.2.2⟩

/-- The states in which an OPEN out of the split meets each check in turn. -/
def doubtful : State := asking open4 ((busy .running).setBoat 5 fun r => { r with identityDoubt := true })
def kept : State := asking open0 ((riding .running (stand 9 0 still)).setBoat 9 fun r => { r with stay := true })

theorem test_release_refusal_premises :
    (OpensClosed (asking open0 (hurt .running)) 0 open0 ∧ (asking open0 (hurt .running)).faulted 0 = true) ∧
      (OpensClosed (probe .running open4) 4 open4 ∧ (probe .running open4).faulted 4 = false ∧
        (probe .running open4).queue 4 = []) ∧
      (OpensClosed doubtful 4 open4 ∧ doubtful.faulted 4 = false ∧ doubtful.queue 4 = 5 :: [6] ∧
        (doubtful.boat 5).identityDoubt = true) ∧
      (OpensClosed kept 0 open0 ∧ kept.faulted 0 = false ∧ kept.queue 0 = 9 :: [] ∧
        (kept.boat 9).identityDoubt = false ∧ (∃ e ∈ kept.config.exits 0, kept.config.edgeLaunch e = true) ∧
        (kept.boat 9).stay = true) ∧
      (OpensClosed (asking open4 (hurt .running)) 4 open4 ∧ TakesExit (asking open4 (hurt .running)) 4 4 ∧
        (asking open4 (hurt .running)).queue 4 = 5 :: [6] ∧
        ((asking open4 (hurt .running)).boat 5).identityDoubt = false ∧
        (∀ e ∈ (asking open4 (hurt .running)).config.exits 4,
          (asking open4 (hurt .running)).config.edgeLaunch e = false) ∧
        (asking open4 (hurt .running)).config.edges[4]? = some ⟨4, 0, 1, 2, false, false⟩ ∧
        (asking open4 (hurt .running)).faulted 0 = true) := by
  refine ⟨⟨opensClosed_of ?_ ?_, ?_⟩, ⟨opensClosed_of ?_ ?_, ?_, ?_⟩, ⟨opensClosed_of ?_ ?_, ?_, ?_, ?_⟩,
    ⟨opensClosed_of ?_ ?_, ?_, ?_, ?_, ?_, ?_⟩,
    ⟨opensClosed_of ?_ ?_, Or.inr ⟨4, 5, 0, ?_, ?_, Or.inl ⟨?_, rfl⟩⟩, ?_, ?_, ?_, ?_, ?_⟩⟩ <;> decide +kernel

/-- The split with its berth free and full, and the berth with boat 9 before a pacer that permits and one that does not. -/
def fullBerth : State := asking open4 (riding .running (stand 9 0 afloat))
def launching (last : Option Nat) : State :=
  let s := riding .running (stand 9 0 still)
  asking open0 (s.setBerth { s.berth with pacer := some ⟨12000, 12000, last, false, 0, true, true⟩ })

/-- Eight entries of other words. -/
def eightHeld (s : State) : State :=
  s.setHold ⟨(List.range 8).map fun i => ⟨⟨.release, 10 + i⟩, 1, false, 0, 200000, .room⟩⟩

theorem test_release_pass_premises :
    (OpensClosed (asking open4 (busy .running)) 4 open4 ∧ (asking open4 (busy .running)).TablesLaw ∧
      (asking open4 (busy .running)).queue 4 = 5 :: [6] ∧ TakesExit (asking open4 (busy .running)) 4 4 ∧
      (asking open4 (busy .running)).atCapacity 0 = false ∧ (asking open4 (busy .running)).faulted 0 = false) ∧
    (OpensClosed (asking open4 (reserved .running)) 4 open4 ∧
      (∃ r ∈ (asking open4 (reserved .running)).tracker.reservations, r.boat = 5)) ∧
    (OpensClosed fullBerth 4 open4 ∧ (∀ r ∈ fullBerth.tracker.reservations, r.boat ≠ 5) ∧
      fullBerth.atCapacity 0 = true ∧ (fullBerth.hold.entries.filter (·.word != ⟨.release, 4⟩)).length < 8 ∧
      8 ≤ ((eightHeld fullBerth).hold.entries.filter (·.word != ⟨.release, 4⟩)).length) ∧
    (OpensClosed (launching none) 0 open0 ∧ (launching none).pacerPermits = true ∧
      TakesExit (launching none) 0 0 ∧ (launching none).atCapacity 1 = false) ∧
    (OpensClosed (launching (some 99000)) 0 open0 ∧ (launching (some 99000)).pacerPermits = false ∧
      8 ≤ ((eightHeld (launching (some 99000))).hold.entries.filter (·.word != ⟨.release, 0⟩)).length) ∧
    ((asking open4 { busy .running with verdict := ⟨flumeShadows 1, none⟩ }).GrantsWord ⟨.release, 4⟩ open4 ∧
      (asking open4 { busy .running with verdict := ⟨flumeShadows 1, none⟩ }).shadow ⟨.release, 4⟩ = some 1) := by
  refine ⟨⟨opensClosed_of ?_ ?_, tablesLaw_of_flume ?_ ?_ ?_ ?_, ?_, Or.inr ⟨4, 5, 0, ?_, ?_, Or.inl ⟨?_, rfl⟩⟩, ?_, ?_⟩,
    ⟨opensClosed_of ?_ ?_, ?_⟩, ⟨opensClosed_of ?_ ?_, ?_, ?_, ?_, ?_⟩,
    ⟨opensClosed_of ?_ ?_, ?_, Or.inl ?_, ?_⟩, ⟨opensClosed_of ?_ ?_, ?_, ?_⟩, ⟨grantsWord_of ?_, ?_⟩⟩ <;> decide +kernel

theorem test_route_premises :
    let e := single 0x10080 0
    let t := single 0x10080 1
    ((asking e (busy .tripped)).GrantsWord ⟨.route, 0⟩ e ∧ (asking e (busy .tripped)).TablesLaw ∧ e.full = true ∧
      (asking e (busy .tripped)).config.bound ⟨.route, 0⟩ = true ∧ inRange .route e.value.toNat = true ∧
      (asking e (busy .tripped)).shadow ⟨.route, 0⟩ = some e.value.toNat) ∧
    ((asking t (reserved .running)).GrantsWord ⟨.route, 0⟩ t ∧
      (asking t (reserved .running)).shadow ⟨.route, 0⟩ ≠ some t.value.toNat ∧
      (∃ g ∈ (asking t (reserved .running)).config.segmentIds,
        ((asking t (reserved .running)).config.segment g).route = some 0 ∧
        (asking t (reserved .running)).reservationsFrom g ≠ [])) ∧
    ((asking t (busy .running)).GrantsWord ⟨.route, 0⟩ t ∧
      (∀ g ∈ (asking t (busy .running)).config.segmentIds,
        ((asking t (busy .running)).config.segment g).route = some 0 →
        (asking t (busy .running)).reservationsFrom g = [] ∧
        ∀ e ∈ (asking t (busy .running)).config.exits g, ((asking t (busy .running)).eye e).state ≠ .blocked)) := by
  refine ⟨⟨grantsWord_of ?_, tablesLaw_of_flume ?_ ?_ ?_ ?_, ?_, ?_, ?_, ?_⟩, ⟨grantsWord_of ?_, ?_, ?_⟩,
    ⟨grantsWord_of ?_, ?_⟩⟩ <;> decide +kernel

/-- The fins of the run-out at shadow 2, with a floor. -/
def floored (floor : Nat) (a : Access) (r : RideState) : State :=
  asking a ((busy r).setRunout 0 fun x => { x with floor := floor })

theorem test_fin_premises :
    let a := single 0x10090 1
    (∀ f ∈ [0, 1, 2], (floored f a .running).GrantsWord ⟨.fin, 0⟩ a ∧ (floored f a .running).brakeFloor 0 = f) ∧
      (floored 1 a .running).TablesLaw ∧ a.full = true ∧ (floored 1 a .running).config.bound ⟨.fin, 0⟩ = true ∧
      a.value.toNat ≤ 4 ∧ (floored 1 a .running).shadow ⟨.fin, 0⟩ = some 2 ∧ a.value.toNat < 2 := by
  refine ⟨fun f hf => ?_, tablesLaw_of_flume ?_ ?_ ?_ ?_, ?_, ?_, ?_, ?_, ?_⟩
  · simp only [List.mem_cons, List.not_mem_nil, or_false] at hf
    rcases hf with rfl | rfl | rfl <;> exact ⟨grantsWord_of (by decide +kernel), by decide +kernel⟩
  all_goals decide +kernel

/-- The conveyor raised to its limit and above, with the crest free, with a boat in it before a full run-out, and with its
lift FAULTED. -/
def crested (a : Access) : State := asking a (riding .running (stand 9 2 (stand 10 3 afloat)))
def lamed (a : Access) : State := asking a (faultSegment .early 1 (busy .running))

theorem test_speed_premises :
    let a := single 0x100A0 1000
    ((asking a (busy .running)).GrantsWord ⟨.speed, 0⟩ a ∧ (asking a (busy .running)).TablesLaw ∧
      a.value.toNat ≤ 1000 ∧ (asking a (busy .running)).shadow ⟨.speed, 0⟩ = some 300 ∧ 300 < a.value.toNat ∧
      (asking a (busy .running)).config.bound ⟨.speed, 0⟩ = true ∧
      (asking a (busy .running)).config.liftSegment 0 = some 1 ∧
      (asking a (busy .running)).config.crestSegment 0 = some 2 ∧ (asking a (busy .running)).maxSpeed 0 = 800 ∧
      (asking a (busy .running)).stallCondition 0 = false ∧ (asking a (busy .running)).faulted 1 = false ∧
      (asking a (busy .running)).faulted 2 = false) ∧
    ((crested a).GrantsWord ⟨.speed, 0⟩ a ∧ (crested a).stallCondition 0 = true ∧
      ((crested a).hold.entries.filter (·.word != ⟨.speed, 0⟩)).length < 8 ∧
      8 ≤ ((eightHeld (crested a)).hold.entries.filter (·.word != ⟨.speed, 0⟩)).length) ∧
    ((lamed a).GrantsWord ⟨.speed, 0⟩ a ∧ (lamed a).faulted 1 = true) := by
  refine ⟨⟨grantsWord_of ?_, tablesLaw_of_flume ?_ ?_ ?_ ?_, ?_, ?_, ?_, ?_, ?_, ?_, ?_, ?_, ?_, ?_⟩,
    ⟨grantsWord_of ?_, ?_, ?_, ?_⟩, ⟨grantsWord_of ?_, ?_⟩⟩ <;> decide +kernel

/-! ## Premises: the memory port and UPKEEP -/

theorem hasRoom_of {s : State} (h : s.configured = true ∧ (s.report.assigned + 1) % s.config.ringCount ≠ s.report.consumer) :
    s.ringHasRoom := h

/-- A motion write waits, and one holds the port. -/
def waiting (m : MotionWrite) (s : State) : State := s.setPassage { s.passage with motion := [m] }
def porting (m : MotionWrite) (s : State) : State := s.setPassage { s.passage with port := some m }

def finMove (v : Nat) (o : MotionOrigin) : MotionWrite := ⟨⟨.fin, 0⟩, 0x10090, v, o, false⟩
def speedMove (v : Nat) : MotionWrite := ⟨⟨.speed, 0⟩, 0x100A0, v, .safe, false⟩
def heldSpeed : HeldEntry := ⟨⟨.speed, 0⟩, 600, false, 100000, 110000, .crest⟩
def openHeld : HeldEntry := ⟨⟨.release, 0⟩, 1, false, 99000, 109000, .pace⟩
def performing : MotionWrite := ⟨⟨.speed, 0⟩, 0x100A0, 600, .performance heldSpeed none, false⟩
def leftBehind : MotionWrite := ⟨⟨.speed, 0⟩, 0x20000, 0, .safe, true⟩

/-- Every clause about a grant: writes that hold the port whatever the shadow, a speed write at and above its shadow, and
fin writes at the floor, below the shadow, below the floor, and lifts at and above the shadow. -/
theorem test_grant_premises :
    (∀ m, (waiting m (busy .running)).resetAsserted = false ∧ (waiting m (busy .running)).passage.port = none ∧
      (waiting m (busy .running)).passage.motion = [m]) ∧
      performing.entry? ≠ none ∧ leftBehind.oldMap = true ∧ (busy .running).shadow ⟨.fin, 1⟩ = none ∧
      (busy .running).shadow ⟨.speed, 0⟩ = some 300 ∧ (speedMove 300).entry? = none ∧
      (busy .running).shadow ⟨.fin, 0⟩ = some 2 ∧ (busy .running).brakeFloor 0 = 0 ∧
      ((busy .running).setRunout 0 fun x => { x with floor := 3, waitingLift := some 3 }).brakeFloor 0 = 3 ∧
      (finMove 2 (.floorLift 0)).origin = .floorLift (finMove 2 (.floorLift 0)).word.index := by
  refine ⟨fun m => ⟨?_, ?_, ?_⟩, ?_⟩
  · exact rfl
  · exact (by decide +kernel : (busy .running).passage.port = none)
  · exact rfl
  · decide +kernel

theorem test_completion_premises :
    (∀ m, (porting m (busy .running)).resetAsserted = false ∧ (porting m (busy .running)).TablesLaw ∧
      (porting m (busy .running)).passage.port = some m) ∧
      (busy .running).config.bound performing.word = true ∧ performing.oldMap = false ∧ leftBehind.oldMap = true ∧
      (porting performing (busy .running)).ringHasRoom :=
  ⟨fun _ => ⟨rfl, tablesLaw_of_flume (by exact (by decide +kernel : (busy .running).loader.active = some flume))
      (by exact (by decide +kernel : (busy .running).loader.pendingImage = none))
      (by exact (by decide +kernel : tablesFit (busy .running) = true)) (by exact ⟨nofun, nofun⟩), rfl⟩,
    by decide +kernel, rfl, rfl, hasRoom_of (by decide +kernel)⟩

/-- A safe write of the fin word completes in STOPPED, and moves its shadow. -/
def settling : State := { porting (finMove 4 .safe) (calm .stopped) with pending := [.motionWriteComplete] }

theorem test_settling_is_sound : settling.Sound := sound_of_check (by decide +kernel)

theorem test_ninth_law_premises :
    settling.Sound ∧ settling.ride.state ≠ .running ∧ settling.shadow ⟨.fin, 0⟩ = some 2 ∧
      ∃ t, step settling = .next t ∧ (t.shadow ⟨.fin, 0⟩ == some 4) = true :=
  ⟨test_settling_is_sound, by decide +kernel, by decide +kernel, next_of_passes (by decide +kernel)⟩

/-- An UPKEEP request that is granted. -/
def upkeeping (u : UpkeepRequest) (s : State) : State := s.setPassage { s.passage with upkeep := [u] }

theorem test_record_premises :
    let s := upkeeping (.record 15 true 7 (.lapse 1 2 3) 0) (calm .running)
    State.reset.configured = false ∧
      ((calm .running).configured = true ∧
        ((calm .running).report.assigned + 1) % (calm .running).config.ringCount ≠ (calm .running).report.consumer) ∧
      (let f := (calm .running).setReport { assigned := 15, consumer := 0, published := 15, gap := false }
       f.configured = true ∧ (f.report.assigned + 1) % f.config.ringCount = f.report.consumer) ∧
      s.resetAsserted = false ∧ s.upkeepGrant = some (.record 15 true 7 (.lapse 1 2 3) 0) ∧ s.memory.wf = true ∧
      s.config.map.ring.base + 16 * 15 + 16 ≤ Config.producerAddr ∧ s.ride.state ≠ .loading ∧
      s.ride.state ≠ .offline .noConfig := by
  refine ⟨?_, ?_, ?_, ?_, ?_, ?_, ?_, ?_, ?_⟩ <;> decide +kernel

theorem test_item_premises :
    ∀ i ∈ [ImageItem.ride, .spare, .consumer, .roster 1, .roster 32], ∀ c,
      (upkeeping (.image i c) (calm .running)).resetAsserted = false ∧
        (upkeeping (.image i c) (calm .running)).upkeepGrant = some (.image i c) ∧
        (upkeeping (.image i c) (calm .running)).memory.wf = true := by
  decide +kernel

/-! ## Premises: the line -/

/-- The line UP with the slots of the last round closed. -/
def due (d : Option Drill) (s : State) : State :=
  let s := s.setLine { s.line with slot := none, silence := 9, nextRound := 100000 }
  s.setRide { s.ride with drill := d }

theorem test_round_premises :
    (∀ d, (due d (calm .stopped)).resetAsserted = false ∧ (due d (calm .stopped)).line.state = .up ∧
      (due d (calm .stopped)).line.slot = none ∧ (due d (calm .stopped)).line.silence < 10 ∧
      (due d (calm .stopped)).line.nextRound ≤ (due d (calm .stopped)).clock ∧
      (due d (calm .stopped)).ride.drill = d) ∧
      (((calm .stopped).setNode 2 fun n => { n with state := .missing, misses := 2 }).node 2).state = .missing := by
  refine ⟨fun d => ⟨rfl, rfl, rfl, (by decide : 9 < 10), (by decide : 100000 ≤ 100000), rfl⟩, by decide +kernel⟩

/-- A report of the BERTH node at position 2: its eye states and counters, its flags and a weight of 450. -/
def berthReport (eyes counters flags : Byte) : List Byte :=
  withCrc8 [0x3C, 0x82, eyes, counters, 0, 7, flags, 0xC2, 1]

/-- Slot 2 is open; its node is in a state. -/
def slotTwo (st : NodeState) (misses : Nat) (s : State) : State :=
  (s.setLine { s.line with slot := some 2 }).setNode 2 fun n => { n with state := st, misses := misses }

theorem slotTwo_tables {st : NodeState} {m : Nat} {r : RideState} (h : r ≠ .loading ∧ r ≠ .offline .noConfig) :
    (slotTwo st m (calm r)).TablesLaw := by
  refine tablesLaw_of_flume rfl rfl ?_ h
  exact (by decide +kernel : tablesFit still = true)

theorem test_report_premises :
    (∀ st m r, (slotTwo st m (calm r)).resetAsserted = false ∧ (slotTwo st m (calm r)).line.state = .up ∧
      (slotTwo st m (calm r)).line.slot = some 2 ∧ ((slotTwo st m (calm r)).node 2).state = st ∧
      (slotTwo st m (calm r)).ride.state = r) ∧
      (∀ st m r, (slotTwo st m (calm r)).validReport 2 (berthReport 1 0x12 8) = true) ∧
      still.config.weighingNode 0 = some 2 ∧ (still.berthLive 0).isSome = true ∧
      still.config.edgeAtEye 2 0 = some 0 ∧ (still.node 2).estopOpen = false ∧
      (parseReport (berthReport 1 0x12 8)).estopOpen = true ∧ still.ride.drill = none := by
  refine ⟨fun st m r => ⟨rfl, rfl, rfl, rfl, rfl⟩, fun st m r => ?_, ?_⟩
  · show (berthReport 1 0x12 8).length == 10 && (berthReport 1 0x12 8).getD 0 0 == 0x3C && crc8Ok (berthReport 1 0x12 8) &&
      (parseReport (berthReport 1 0x12 8)).position == 2 &&
      (some NodeKind.berth).any (fun k => k.code == (parseReport (berthReport 1 0x12 8)).kind) = true
    decide +kernel
  · decide +kernel

theorem test_miss_premises :
    (∀ r, (slotTwo .active 0 (calm r)).slotMissed 2 [] = true) ∧
      ((slotTwo .missing 1 (calm .running)).node 2).misses = 1 ∧
      ((slotTwo .missing 2 (calm .running)).node 2).misses ≠ 1 ∧
      (slotTwo .missing 2 (calm .running)).slotMissed 2 [[0], [1]] = true ∧
      still.config.edges[0]? = some ⟨0, 1, 2, 0, true, true⟩ ∧ (slotTwo .active 0 (calm .running)).TablesLaw :=
  ⟨fun _ => rfl, rfl, by decide +kernel, by decide +kernel, by decide +kernel, slotTwo_tables ⟨nofun, nofun⟩⟩

/-- The run-out's fin node stands at position 3; an input with no eye; and a withheld round with a MISSING node. -/
theorem test_report_unit_premises :
    (calm .running).config.finNode 0 = some 3 ∧ ((calm .running).runout 0).isSome = true ∧
      still.config.edgeAtEye 2 1 = none ∧ still.config.edgeAtEye 2 0 = some 0 ∧
      ((calm .stopped).node 3).state ≠ .lost ∧
      (let s := slotTwo .missing 2 (due (some ⟨1, .withheld, 4⟩) (calm .stopped))
       s.line.state = .up ∧ s.ride.drill = some ⟨1, .withheld, 4⟩ ∧ 2 ≤ s.config.nodes.length ∧ (s.node 2).state = .missing ∧
         (s.node 1).state ≠ .missing ∧ (calm .tripped).ride.drill = none) := by
  refine ⟨?_, ?_, ?_, ?_, ?_, ?_⟩ <;> decide +kernel

/-- A check round of a sustain drill with a slot open, and the results of the three nodes. -/
def drilling (slot left : Nat) (results : List SustainResult) : State :=
  let s := calm .stopped
  let s := s.setLine { s.line with
    slot := some slot, nodes := s.line.nodes.zipIdx.map fun x => { x.1 with result := results.getD x.2 .untested } }
  s.setRide { s.ride with drill := some ⟨7, .check, left⟩ }

/-- A report of the BRAKE node at position 3, sustained. -/
def brakeReport : List Byte := withCrc8 [0x3C, 0xC3, 0, 0, 0, 0, 0x14, 0, 0]

/-- A check round goes on within the round, goes on after a round that left a position UNTESTED, ends with every position
tested, and ends with the third round, each with no trip in the event. -/
theorem test_check_round_premises :
    (∀ x ∈ [(2, 3, [SustainResult.passed]), (3, 2, [SustainResult.passed]), (3, 3, [.passed, .failed, .passed]),
        (3, 1, [.passed, .failed])],
      (drilling x.1 x.2.1 x.2.2).line.slot = some x.1 ∧ (drilling x.1 x.2.1 x.2.2).slotMissed x.1 [] = true ∧
        (drilling x.1 x.2.1 x.2.2).ride.state = .stopped ∧
        ∃ t, exec (.slotMiss []) (drilling x.1 x.2.1 x.2.2) = .next t ∧ (t.ride.state == .stopped) = true) ∧
    (drilling 3 2 [.passed, .failed]).validReport 3 brakeReport = true ∧
    ∃ t, exec (.nodeReport brakeReport) (drilling 3 2 [.passed, .failed]) = .next t ∧
      (t.ride.state == .stopped && (t.node 3).result == .passed && t.waitingReports.getLast? == some (.drill true .failed 1 [2]))
        = true := by
  refine ⟨fun x hx => ⟨?_, ?_, ?_, next_of_passes ?_⟩, by decide +kernel, next_of_passes (by decide +kernel)⟩ <;>
    (revert x; decide +kernel)

theorem busy_roster (r : RideState) : (busy r).RosterLaw :=
  rosterLaw_of_check (by exact (by decide +kernel : rosterCheck afloat = true))

/-- Counts over a launch edge, a free edge, a free edge into a full segment, and each of the two branches. -/
theorem test_passage_premises :
    (busy .running).TablesLaw ∧ (busy .running).RosterLaw ∧ (reserved .running).RosterLaw ∧
      (busy .running).config.edges[1]? = some ⟨1, 2, 1, 0, false, false⟩ ∧ (busy .running).queue 1 = 7 :: [] ∧
      (busy .running).config.edges[4]? = some ⟨4, 0, 1, 2, false, false⟩ ∧ (busy .running).queue 4 = 5 :: [6] ∧
      (reserved .running).reservationOf 5 = some ⟨5, 4, 104000⟩ ∧
      (riding .running (stand 9 0 still)).queue 0 = 9 :: [] ∧ (riding .running (stand 9 0 still)).RosterLaw ∧
      (riding .running (stand 9 0 still)).config.edges[0]? = some ⟨0, 1, 2, 0, true, true⟩ ∧
      (riding .running (stand 9 2 afloat)).atCapacity 2 = true ∧ (riding .running (stand 9 2 afloat)).RosterLaw ∧
      (∃ b, (riding .running (stand 9 0 still)).berthLive 0 = some b) ∧
      (∃ q, (riding .running (stand 9 0 still)).berth.pacer = some q) ∧
      ({ busy .running with verdict := ⟨flumeShadows 1, none⟩ } : State).shadow ⟨.release, 4⟩ = some 1 ∧
      (busy .running).closeWaiting 4 = false ∧ (busy .running).ringHasRoom ∧
      (busy .running).clock - ((busy .running).boat 8).arrival < ((busy .running).config.segment 3).minDwell ∧
      (busy .running).queue 3 = 8 :: [] := by
  refine ⟨busy_tables ⟨nofun, nofun⟩, busy_roster _, rosterLaw_of_check ?_, ?_, ?_, ?_, ?_, ?_, ?_, rosterLaw_of_check ?_, ?_,
    ?_, rosterLaw_of_check ?_, Option.isSome_iff_exists.mp ?_, Option.isSome_iff_exists.mp ?_, ?_, ?_, hasRoom_of ?_, ?_, ?_⟩
    <;> decide +kernel

/-- A launch over the tagged edge 0 with its reservation, its performance granted and not yet complete, and another boat's
number read. -/
def opening : State :=
  let s := (riding .running (stand 9 0 (stand 5 4 still))).addReservation ⟨9, 0, 105000⟩
  porting ⟨⟨.release, 0⟩, 0x10000, 1, .performance openHeld (some 9), false⟩ s

theorem test_tag_premises :
    opening.TablesLaw ∧ opening.RosterLaw ∧ opening.config.edges[0]? = some ⟨0, 1, 2, 0, true, true⟩ ∧
      opening.queue 0 = 9 :: [] ∧ opening.reservationOf 9 = some ⟨9, 0, 105000⟩ ∧
      (opening.passage.port.map (·.word)) = some ⟨.release, 0⟩ ∧ opening.closeWaiting 0 = false ∧
      (opening.config.segment 0).gated = true ∧
      ¬ opening.clock - (opening.boat 9).arrival < (opening.config.segment 0).minDwell ∧ opening.ringHasRoom ∧
      ((opening.report.assigned + 1) % opening.config.ringCount + 1) % opening.config.ringCount ≠
        opening.report.consumer ∧
      (opening.boat 5).status ≠ .absent ∧ (opening.boat 6).status = .absent ∧
      opening.passage.motion = [] := by
  refine ⟨tablesLaw_of_flume ?_ ?_ ?_ ?_, rosterLaw_of_check ?_, ?_, ?_, ?_, ?_, ?_, ?_, ?_, hasRoom_of ?_, ?_, ?_, ?_, ?_⟩ <;>
    decide +kernel

/-- An eye with a baseline. -/
def eyed (e : Nat) (st : EyeState) (k : Option Nat) : State := (busy .running).setEye e fun _ => ⟨st, k⟩

theorem eyed_tables (st : EyeState) (k : Option Nat) : (eyed 1 st k).TablesLaw := by
  refine tablesLaw_of_flume (by exact (by decide +kernel : (busy .running).loader.active = some flume))
    (by exact (by decide +kernel : (busy .running).loader.pendingImage = none)) ?_ ⟨nofun, nofun⟩
  cases st <;> exact (by decide +kernel : tablesFit (busy .running) = true)

theorem test_eye_premises :
    (∀ x ∈ [EyeLive.mk .clear (some 15), ⟨.fault, none⟩, ⟨.fault, some 3⟩, ⟨.unknown, none⟩],
      (eyed 0 x.state x.baseline).eye 0 = x ∧ (eyed 1 x.state x.baseline).eye 1 = x) ∧
      (∀ st k, (eyed 1 st k).TablesLaw) ∧
      (busy .running).config.edges[1]? = some ⟨1, 2, 1, 0, false, false⟩ ∧
      (busy .running).config.edges[0]? = some ⟨0, 1, 2, 0, true, true⟩ ∧ (0 + 16 - 15) % 16 = 1 ∧
      (busy .running).queue 0 = [] ∧ 2 ≤ (14 + 16 - 15) % 16 ∧ (busy .running).occupied 1 = true ∧
      still.occupied 0 = false ∧ still.occupied 1 = false := by
  refine ⟨?_, eyed_tables, ?_⟩ <;> decide +kernel

theorem test_line_premises :
    (∀ l, (due none (calm .running)).resetAsserted = false ∧ (due none (calm .running)).TablesLaw ∧
      10 ≤ ((calm .running).setLine { still.line with silence := 10, lowSince := l }).line.silence) ∧
      (99980 : Nat) + 20 ≤ still.clock ∧ (calm .running).line.state = .up ∧ (calm .running).line.silence < 10 ∧
      (calm .running).ringHasRoom ∧ (calm .running).config.edges.length = 6 ∧
      ((calm .tripped).setLine { still.line with state := .down }).line.state ≠ .up ∧ (100000 : Nat) < 99981 + 20 :=
  ⟨fun _ => ⟨rfl, tablesLaw_of_flume rfl rfl (by exact still_tables) ⟨nofun, nofun⟩, (by decide : 10 ≤ 10)⟩,
    (by decide : 99980 + 20 ≤ 100000), rfl, (by decide +kernel), hasRoom_of (by decide +kernel), rfl, nofun, by decide⟩

/-! ## Premises: discovery -/

/-- A discovery stands somewhere. -/
def finding (d : Discovery) (r : RideState) (s : State) : State :=
  riding r (s.setLine { s.line with state := .discovering, slot := none, discovery := d })

/-- Directives with their arguments at hand. -/
theorem takes_of {s : State} {k : DirectiveKind}
    (h : s.resetAsserted = false ∧ s.ride.state ≠ .loading ∧ s.busyFor k = none) : s.Takes k := ⟨h.1, h.2.1, h.2.2⟩

def kinds : List DirectiveKind :=
  [.startRide, .stopRide, .stopNow, .resetTrip, .drill, .addBoat, .withdrawBoat, .reseat, .setPace, .setProfile,
    .commitConfig, .restartLine]

theorem test_takes_premises : ∀ k ∈ kinds, ∀ r ∈ [RideState.stopped, .running, .tripped, .offline .lineFailed],
    (busy r).Takes k ∧ (calm r).Takes k := by
  intro k hk r hr
  refine ⟨takes_of ?_, takes_of ?_⟩ <;> revert k r <;> decide +kernel

def answer : List Byte := withCrc8 [0x96, 2, 1, 2, 3, 4]

theorem test_discovery_premises :
    (busy .tripped).TablesLaw ∧ (busy (.offline .lineFailed)).TablesLaw ∧ (busy .tripped).inService = true ∧
      (calm .tripped).inService = false ∧ (99999 : Nat) + 1 ≤ still.clock ∧
      (∀ d r, (finding d r still).resetAsserted = false ∧ (finding d r still).line.discovery = d) ∧
      still.clock ≤ (99995 : Nat) + 5 ∧ validAnswer answer = true ∧
      (finding (.query 15 99995) .tripped still).TablesLaw :=
  ⟨busy_tables ⟨nofun, nofun⟩, busy_tables ⟨nofun, nofun⟩, by decide +kernel, by decide +kernel,
    (by decide : 99999 + 1 ≤ 100000), fun _ _ => ⟨rfl, rfl⟩, (by decide : 100000 ≤ 99995 + 5), by decide +kernel,
    tablesLaw_of_flume rfl rfl (by exact still_tables) ⟨nofun, nofun⟩⟩

/-- Enumerations that have ended with the configured count, and with a count or a kind that does not match. -/
theorem test_discovery_end_premises :
    let d := finding (.query 4 99995) (.offline .discovering) still
    let w := d.setNode 2 fun n => { n with discovered := some .general }
    (∀ r, r ≠ .loading ∧ r ≠ .offline .noConfig → (finding (.query 4 99995) r still).TablesLaw) ∧
      d.loader.pendingImage = none ∧ 99995 + 5 ≤ d.clock ∧ 4 - 1 = d.config.nodes.length ∧
      (∀ p, 1 ≤ p → p ≤ d.config.nodes.length → (d.node p).expected = (d.node p).discovered) ∧
      d.ride.state = .offline .discovering ∧ d.ride.senseLevel = false ∧ d.ride.drill = none ∧
      (w.node 2).expected ≠ (w.node 2).discovered ∧ (w.node 1).expected = (w.node 1).discovered ∧
      16 ≠ d.config.nodes.length ∧ d.ringHasRoom := by
  refine ⟨fun r h => tablesLaw_of_flume rfl rfl (by exact still_tables) h, ?_, ?_, ?_, ?_, ?_, ?_, ?_, ?_, ?_, ?_, hasRoom_of ?_⟩
  case refine_4 =>
    intro p h1 h2
    have h3 : p ≤ 3 := h2
    interval_cases p <;> decide +kernel
  all_goals decide +kernel

/-- A pending image. -/
def imaged (s : State) : State := s.setLoader { s.loader with pendingImage := some ⟨flume, 0x1234, []⟩ }

theorem imaged_tables {s : State} (h : s.TablesLaw) : (imaged s).TablesLaw :=
  { h with pending := fun i k => by cases k; exact test_flume_is_laid }

/-- A discovery that matches with an image pending, as it would leave OFFLINE(DISCOVERING) and in TRIPPED. -/
theorem test_discovery_image_premises :
    ∀ r ∈ [RideState.offline .discovering, .tripped],
      (imaged (finding (.query 4 99995) r still)).TablesLaw ∧
        (imaged (finding (.query 4 99995) r still)).loader.pendingImage = some ⟨flume, 0x1234, []⟩ ∧
        (imaged (finding (.query 4 99995) r still)).ride.state = r := by
  intro r hr
  refine ⟨imaged_tables (tablesLaw_of_flume rfl rfl (by exact still_tables) ?_), rfl, rfl⟩
  revert r
  decide

/-! ## Premises: deadlines, boats and profiles -/

/-- Boat 7 overdue at the run-out's maximum dwell, with the split ahead of it empty. -/
def late : State :=
  (riding .running (stand 7 3 still)).setBoat 7 fun r => { r with dwell := .running 70000 }

theorem test_deadline_premises :
    let s := { reserved .running with clock := 104000 }
    let h := s.setHold ⟨[heldSpeed]⟩
    (s.resetAsserted = false ∧ s.reservationOf 5 = some ⟨5, 4, 104000⟩ ∧ (104000 : Nat) ≤ s.clock ∧ s.ringHasRoom ∧
      s.config.edges[4]? = some ⟨4, 0, 1, 2, false, false⟩ ∧ (s.config.segment 4).gated = true ∧
      s.closeWaiting 4 = false) ∧
    (late.resetAsserted = false ∧ late.TablesLaw ∧ 3 < late.config.segments.length ∧ late.ride.state = .running ∧
      (late.boat 7).segment = some 3 ∧ (late.boat 7).dwell = .running 70000 ∧
      (late.config.segment 3).maxDwell = some 30000 ∧ 70000 + 30000 ≤ late.clock ∧ late.successorFull 3 = false) ∧
    h.heldEntry ⟨.speed, 0⟩ = some heldSpeed ∧ heldSpeed.expiry ≤ ({ h with clock := 110000 } : State).clock := by
  refine ⟨⟨?_, ?_, ?_, hasRoom_of ?_, ?_, ?_, ?_⟩, ⟨?_, tablesLaw_of_flume ?_ ?_ ?_ ?_, ?_, ?_, ?_, ?_, ?_, ?_, ?_⟩, ?_, ?_⟩
    <;> decide +kernel

/-- A lapse while the performance of the reservation's OPEN is granted and not yet complete. -/
theorem test_lapse_port_premises :
    let s := { opening with clock := 105000 }
    s.resetAsserted = false ∧ s.reservationOf 9 = some ⟨9, 0, 105000⟩ ∧ 105000 ≤ s.clock ∧
      (s.passage.port.map fun m => (m.word, m.value, m.oldMap)) = some (⟨.release, 0⟩, 1, false) ∧
      s.closeWaiting 0 = false := by
  refine ⟨?_, ?_, ?_, ?_, ?_⟩ <;> decide +kernel

/-- Directives that find no configuration in effect. -/
theorem test_unset_premises :
    unset.TablesLaw ∧ unset.RosterLaw ∧ unset.configured = false ∧ unset.ride.state = .offline .noConfig ∧
      (∀ k ∈ [DirectiveKind.addBoat, .reseat, .setPace, .setProfile], unset.Takes k) := by
  refine ⟨unset_tables, rosterLaw_of_check (by decide +kernel), rfl, rfl, fun k hk => takes_of ?_⟩
  revert k
  decide +kernel

theorem test_boat_premises :
    (busy .stopped).TablesLaw ∧ (busy .stopped).RosterLaw ∧ (busy .stopped).config.segments.length = 5 ∧
      ((busy .stopped).boat 5).status = .placed ∧ ((busy .stopped).boat 32).status = .absent ∧
      (hurt .stopped).faulted 0 = true ∧ (busy .stopped).load 4 = ((busy .stopped).config.segment 4).capacity ∧
      (busy .stopped).load 0 < ((busy .stopped).config.segment 0).capacity ∧ (busy .stopped).faulted 0 = false := by
  refine ⟨busy_tables ⟨nofun, nofun⟩, busy_roster _, ?_, ?_, ?_, ?_, ?_, ?_, ?_⟩ <;> decide +kernel

/-- A list that fits, one that does not, one with an ABSENT boat after a PLACED one. -/
theorem test_reseat_premises :
    (busy .tripped).TablesLaw ∧ (busy .tripped).RosterLaw ∧ ((busy .tripped).config.segment 4).capacity = 2 ∧
      [6, 8].Nodup ∧ (∀ b ∈ [6, 8], ((busy .tripped).boat b).status ≠ .absent) ∧
      ((busy .tripped).boat 9).status = .absent ∧ [6, 9] = [6] ++ 9 :: [] ∧ ¬ [6, 6].Nodup ∧
      (busy .tripped).config.runoutSegment 0 = some 3 ∧ ((busy .tripped).config.segment 3).capacity = 2 := by
  refine ⟨busy_tables ⟨nofun, nofun⟩, busy_roster _, ?_, ?_, ?_, ?_, ?_, ?_, ?_, ?_⟩ <;> decide +kernel

/-- The interval has elapsed, with no entry and with one OPEN held for the pacer; and the pacer after it. -/
def waitingPacer : Pacer := ⟨12000, 12000, some 88000, false, 0, false, true⟩
def metPacer : Pacer := { waitingPacer with reached := true, stage1 := true }
def paced (s : State) : State := s.setBerth { s.berth with pacer := some waitingPacer }
def pacedOpen : State := paced ((riding .running (stand 9 0 still)).setHold ⟨[openHeld]⟩)

theorem test_pacer_premises :
    ((calm .stopped).berth.pacer.isSome = true) ∧
    ((paced (busy .running)).resetAsserted = false ∧
      (paced (busy .running)).berth.pacer = some waitingPacer ∧
      (paced (busy .running)).tracker.reservations = [] ∧ (paced (busy .running)).hold.entries = [] ∧
      12000 ≤ (paced (busy .running)).clock - 88000) ∧
    ((paced (reserved .running)).config.edgeLaunch 4 = false ∧
      (paced ((busy .running).addReservation ⟨5, 0, 104000⟩)).config.edgeLaunch 0 = true ∧
      waitingPacer.stage1 = false ∧ metPacer.stage1 = true ∧ { metPacer with reached := false }.reached = false) ∧
    pacedOpen.hold.entries = [openHeld] ∧
    ({ pacedOpen with berth := { pacedOpen.berth with pacer := some metPacer } } : State).judge openHeld.word
      openHeld.value = .pass (some ⟨9, 0, 105000⟩) := by
  refine ⟨?_, ⟨?_, ?_, ?_, ?_, ?_⟩, ⟨?_, ?_, ?_, ?_, ?_⟩, ?_, ?_⟩ <;> decide +kernel

/-- Argument counts that the rules do not take, beside those that they do. -/
theorem test_count_premises :
    (∀ k ∈ kinds, (calm .stopped).Takes k) ∧ ([0] : List Word).length ≤ 15 ∧ ¬ ([0] : List Word).length = 0 ∧
      ¬ ([] : List Word).length = 1 ∧ ¬ ([] : List Word).length = 2 ∧ ¬ 2 ≤ ([0] : List Word).length ∧
      (∀ k : Word, [2] = [k] → 1 < k.toNat) ∧ ∀ k : Word, ([] : List Word) = [k] → 1 < k.toNat :=
  ⟨fun k h => (test_takes_premises k h .stopped (by decide)).2, by decide, by decide, by decide, by decide, by decide,
    fun k h => by cases h; decide, nofun⟩

/-- A pacer that holds its run load and stage 2, with boats and a reservation in the run set. -/
theorem test_run_load_premises :
    let s := handOn still (reserved .running)
    s.runLoad = 2 ∧ s.HoldsRunLoad ∧ ∃ t, exec (.lineLevelChange true) s = .next t := by
  refine ⟨by decide +kernel, fun p hp => ?_, next_of (by decide +kernel)⟩
  rw [show (handOn still (reserved .running)).berth.pacer = some ⟨12000, 12000, none, true, 2, true, true⟩ by
    decide +kernel] at hp
  cases hp
  decide +kernel

/-- A boat in the run-out at its second step, and a run-out that expects a boat. -/
def braking : State :=
  ((busy .running).setBoat 8 fun r => { r with arrival := 97000, nextStep := some 100000 }).setRunout 0 fun x =>
    { x with floor := 0 }

theorem test_profile_premises :
    (∀ x, ∃ before p after, [ProfileStep.mk 0 3, ⟨1500, 0⟩] = before ++ p :: after ∧ (0 ≤ x → p.time ≤ x)) ∧
    (calm .stopped).ride.state ≠ .offline .noConfig ∧ (calm .running).runoutsQuiet = true ∧
      (busy .running).runoutsQuiet = false ∧
    (braking.resetAsserted = false ∧ braking.RosterLaw ∧ (braking.boat 8).segment = some 3 ∧
      (braking.config.segment 3).runout = some 0 ∧ braking.config.runoutSegment 0 = some 3 ∧
      (braking.boat 8).nextStep = some 100000 ∧ 100000 ≤ braking.clock ∧ (braking.runout 0).isSome = true ∧
      8 ∈ braking.queue 3 ∧ braking.runoutExpected 3 = false ∧ (riding .running (stand 9 2 afloat)).runoutExpected 3 = true) := by
  refine ⟨fun x => ⟨[], ⟨0, 3⟩, [⟨1500, 0⟩], rfl, fun _ => Nat.zero_le x⟩, ?_, ?_, ?_,
    ⟨?_, rosterLaw_of_check ?_, ?_, ?_, ?_, ?_, ?_, ?_, ?_, ?_, ?_⟩⟩ <;> decide +kernel

theorem test_odd_profile_premises :
    ([0, 1, 2] : List Word).length % 2 = 1 ∧ ([0] : List Word).length < 2 ∧ (calm .stopped).Takes .setProfile :=
  ⟨by decide, by decide, takes_of (by decide +kernel)⟩

/-- Steps that SET_PROFILE accepts at the ends of their ranges. -/
theorem test_steps_premises :
    let given := [ProfileStep.mk 0 4, ⟨60000, 0⟩]
    (∀ p ∈ given, p.time ≤ 60000 ∧ p.stage ≤ 4) ∧
      (∀ i a b, given[i]? = some a → given[i + 1]? = some b → a.time < b.time ∧ b.stage ≤ a.stage) := by
  refine ⟨by decide, fun i a b h1 h2 => ?_⟩
  match i with
  | 0 => cases h1; cases h2; decide
  | i + 1 => cases h2

/-- The fin-lag timer has run for the fin lag. -/
def lagging : State := (busy .running).setRunout 0 fun x => { x with feedback := .stage 1, timer := .running 99700 }

theorem test_fin_lag_premises :
    lagging.resetAsserted = false ∧ lagging.TablesLaw ∧ lagging.config.runoutSegment 0 = some 3 ∧
      lagging.runout 0 = some ⟨0, 0, .stage 1, .running 99700, none⟩ ∧ 99700 + lagging.config.finLag ≤ lagging.clock ∧
      lagging.shadow ⟨.fin, 0⟩ = some 2 := by
  refine ⟨?_, tablesLaw_of_flume ?_ ?_ ?_ ?_, ?_, ?_, ?_, ?_⟩ <;> decide +kernel

/-- A FIN_WRITE and a completion that change the fin shadow, with fins at stage 1 and at stage 4. -/
theorem test_fin_shadow_premises :
    let fins (f : FinFeedback) (s : State) := s.setRunout 0 fun x => { x with feedback := f }
    (∀ f ∈ [FinFeedback.stage 1, .stage 4], (fins f settling).TablesLaw ∧
      (fins f settling).shadow ⟨.fin, 0⟩ ≠ some 4 ∧ ((fins f settling).runout 0).map (·.feedback) = some f ∧
      ∃ t, exec .motionWriteComplete (fins f settling) = .next t ∧ (t.shadow ⟨.fin, 0⟩ == some 4) = true) ∧
    ∃ t, exec .finWrite (probe .running (single 0x10090 3)) = .next t ∧ (t.shadow ⟨.fin, 0⟩ == some 3) = true := by
  refine ⟨fun f hf => ⟨tablesLaw_of_flume ?_ ?_ ?_ ?_, ?_, ?_, next_of_passes ?_⟩, next_of_passes (by decide +kernel)⟩ <;>
    (revert f; decide +kernel)

/-- A conveyor whose record holds a stall condition, and whether a stop waits. -/
def stalling (stalled waits : Bool) (s : State) : State :=
  s.setConveyor 0 fun x => { x with stalled := stalled, stopWaiting := waits }

/-- A crest with a boat before a full run-out. -/
def jammed : State := riding .running (stand 9 2 (stand 10 3 afloat))

theorem test_stall_premises :
    (jammed.config.crestSegment 0 = some 2 ∧ jammed.config.exits 2 = [2] ∧
      jammed.config.edges[2]? = some ⟨2, 3, 1, 1, false, false⟩ ∧ jammed.queue 2 ≠ [] ∧
      (jammed.config.segment 3).capacity ≤ jammed.load 3) ∧
    (jammed.conveyor 0 = some ⟨0, false, false⟩ ∧ jammed.stallCondition 0 = true ∧
      (busy .running).stallCondition 0 = false ∧ (stalling true false (busy .running)).conveyor 0 = some ⟨0, true, false⟩ ∧
      jammed.shadow ⟨.speed, 0⟩ = some 300 ∧ jammed.ringHasRoom ∧
      (stalling false true jammed).conveyor 0 = some ⟨0, false, true⟩) ∧
    (let s := porting performing (stalling true false jammed)
     s.resetAsserted = false ∧ s.TablesLaw ∧ s.config.bound ⟨.speed, 0⟩ = true ∧ s.conveyor 0 = some ⟨0, true, false⟩ ∧
       s.shadow ⟨.speed, 0⟩ ≠ some performing.value ∧ s.ringHasRoom) ∧
    (let s := porting (jammed.stallStopWrite 0) (stalling true true jammed)
     s.TablesLaw ∧ s.conveyor 0 = some ⟨0, true, true⟩ ∧
       s.passage.port = some ⟨⟨.speed, 0⟩, 0x100A0, 0, .stallStop 0, false⟩) := by
  refine ⟨⟨?_, ?_, ?_, ?_, ?_⟩, ⟨?_, ?_, ?_, ?_, ?_, hasRoom_of ?_, ?_⟩,
    ⟨?_, tablesLaw_of_flume ?_ ?_ ?_ ?_, ?_, ?_, ?_, hasRoom_of ?_⟩, tablesLaw_of_flume ?_ ?_ ?_ ?_, ?_, ?_⟩ <;>
    decide +kernel

theorem test_held_stalls_premises :
    (stalling true false jammed).HoldsStalls ∧
      ∃ t, exec (.withdrawBoat ⟨1, [10]⟩) (stalling true false jammed) = .next t := by
  refine ⟨fun c hc x hx => ?_, next_of (by decide +kernel)⟩
  match c with
  | 0 =>
    rw [show (stalling true false jammed).conveyor 0 = some ⟨0, true, false⟩ by decide +kernel] at hx
    cases hx
    decide +kernel
  | c + 1 =>
    have h : ∀ c < 4, 0 < c → (stalling true false jammed).conveyor c = none := by decide +kernel
    rw [h (c + 1) hc (Nat.succ_pos c)] at hx
    cases hx

/-! ## Premises: ride states, commits and saves -/

theorem test_start_premises :
    ((calm .stopped).ride.drill = none ∧ ∀ p, 1 ≤ p → p ≤ 16 → ((calm .stopped).node p).result ≠ .failed) ∧
      (due (some ⟨1, .check, 3⟩) (calm .stopped)).busyFor .startRide = none ∧
      (((calm .stopped).setNode 16 fun n => { n with result := .failed }).node 16).result = .failed ∧
      ((busy .stopped).boat 8).segment = some 3 ∧ ((busy .stopped).config.segment 3).maxDwell ≠ none := by
  refine ⟨⟨rfl, fun p h1 h2 => ?_⟩, ?_, ?_, ?_, ?_⟩
  · interval_cases p <;> decide +kernel
  all_goals decide +kernel

/-- The states in which RESET_TRIP meets each of its checks, and passes them all. -/
theorem test_reset_trip_premises :
    ((imaged (calm .running)).Takes .stopRide ∧ (imaged (calm .running)).loader.pendingImage ≠ none) ∧
    ((calm .tripped).line.state = .up ∧ (∀ p, 1 ≤ p → p ≤ 16 → ((calm .tripped).node p).state ≠ .lost) ∧
      (∀ e < 6, ((calm .tripped).eye e).state ≠ .fault) ∧
      (∀ p, 1 ≤ p → p ≤ 16 → ((calm .tripped).node p).estopOpen = false) ∧
      (∀ g < 5, (calm .tripped).faulted g = false) ∧ (calm .tripped).ride.senseLevel = false) ∧
    (((calm .tripped).setLine { still.line with state := .down }).Takes .resetTrip ∧
      ((slotTwo .lost 3 (calm .tripped)).node 2).state = .lost ∧
      ((eyed 5 .fault none).eye 5).state = .fault ∧ (hurt .tripped).faulted 0 = true) := by
  refine ⟨⟨takes_of ?_, ?_⟩, ⟨?_, fun p h1 h2 => ?_, ?_, fun p h1 h2 => ?_, ?_, ?_⟩, ⟨takes_of ?_, ?_, ?_, ?_⟩⟩
  case refine_4 => interval_cases p <;> decide +kernel
  case refine_6 => interval_cases p <;> decide +kernel
  all_goals decide +kernel

theorem test_trip_premises :
    (∀ r, (busy r).ride.state = r) ∧ (calm .stopped).ride.drill = none ∧
      (due (some ⟨1, .withheld, 4⟩) (calm .stopped)).ride.drill = some ⟨1, .withheld, 4⟩ ∧
      (calm .stopped).hold.entries = [] ∧ (calm .stopped).configured = true ∧
      ((calm .stopped).report.assigned + 1) % (calm .stopped).config.ringCount ≠ (calm .stopped).report.consumer ∧
      ((((calm .stopped).report.assigned + 1) % (calm .stopped).config.ringCount) + 1) % (calm .stopped).config.ringCount ≠
        (calm .stopped).report.consumer ∧
      (still.setSensePin true).sensePin = true ∧ still.sensePin = false ∧
      (still.setDirective { still.directive with long := some (.restartLine 1) }).resetAsserted = false := by
  refine ⟨fun _ => rfl, ?_, ?_, ?_, ?_, ?_, ?_, ?_, ?_, ?_⟩ <;> decide +kernel

/-- A commit whose last 16 bytes are read. -/
def committing (tag : BitVec 16) (n : Nat) (r : RideState) : State :=
  let s := upkeeping (.staging 16 4) (calm r)
  let s := s.setMemory (Memory.writeBytes [] 0xFFF710 ((tinyImage.drop 444)))
  s.setDirective { s.directive with long := some (.commit tag n (tinyImage.take 444)) }

theorem test_commit_premises :
    (2304 : Word).toNat % 4 = 0 ∧ (16 : Word).toNat % 4 = 0 ∧ ((18 : Word).toNat % 4 ≠ 0) ∧ (2308 : Word).toNat > 2304 ∧
    (∀ n r, (committing 1 n r).resetAsserted = false ∧ (committing 1 n r).upkeepGrant = some (.staging 16 4) ∧
      (committing 1 n r).directive.long = some (.commit 1 n (tinyImage.take 444)) ∧ (committing 1 n r).ride.state = r) := by
  refine ⟨?_, ?_, ?_, ?_, fun n r => ⟨rfl, rfl, rfl, rfl⟩⟩ <;> decide

theorem test_commit_images :
    (tinyImage.take 444 ++ Memory.readBytes (committing 1 460 .running).memory (0xFFF700 + 16) (4 * 4)) = tinyImage ∧
      (tinyImage.take 444 ++ tinyImage.drop 444).length < 464 ∧
      (∃ c i, validate (tinyImage ++ []) (some 456) = .invalid c i) :=
  ⟨by decide +kernel, by decide +kernel, 3, 0, by decide +kernel⟩

/-- A save at its first page and at its last. -/
def saving (page : Nat) (length : Nat) : State :=
  (calm .stopped).setLoader { still.loader with save := .saving page 99980 (List.replicate length 1) 7 }

theorem test_save_premises :
    (∀ p n, (saving p n).resetAsserted = false ∧ (saving p n).loader.store.wf = true ∧
      (saving p n).loader.save = .saving p 99980 (List.replicate n 1) 7) ∧
      still.clock ≤ 99980 + 20 ∧ (List.replicate 64 (1 : Byte)).length ≤ 32 * 1 + 32 ∧
      32 * 0 + 32 < (List.replicate 64 (1 : Byte)).length ∧ 99980 + 20 ≤ still.clock ∧ (saving 1 64).ringHasRoom :=
  ⟨fun _ _ => ⟨rfl, rfl, rfl⟩, (by decide : 100000 ≤ 99980 + 20), by decide, by decide,
    (by decide : 99980 + 20 ≤ 100000), hasRoom_of (by decide +kernel)⟩

/-! ## Premises: floors, records that wait, examinations and image items -/

theorem ringTakes_of {s : State} {n : Nat} (h : s.configured = true ∧
    ∀ k < n, (s.report.assigned + k + 1) % s.config.ringCount ≠ s.report.consumer) : s.ringTakes n := h

/-- An entry of the split's release word stands, and the ring takes the records of a write that supersedes it. -/
theorem test_superseded_premises :
    let held (s : State) := s.setHold ⟨[⟨⟨.release, 4⟩, 1, false, 99000, 109000, .room⟩]⟩
    ∀ s ∈ [asking open4 (hurt .running), asking open4 (busy .running), fullBerth],
      (held s).supersededReports ⟨.release, 4⟩ =
          [.holdEnd ⟨⟨.release, 4⟩, 1, false, 99000, 109000, .room⟩ .superseded none 5] ∧
        s.supersededReports ⟨.release, 4⟩ = [] ∧ (held s).ringTakes 2 := by
  intro held s hs
  refine ⟨?_, ?_, ringTakes_of ?_⟩ <;> (revert s; decide +kernel)

/-- The tenth law: an access that the arbiter grants next before a known fin shadow, a FIN_WRITE that ends with DONE, a fin
write that a grant lets hold the port, and one on the port with the floor at it and with the floor risen above it. -/
def overtaken : State :=
  let s := porting (finMove 3 (.floorLift 0)) (busy .running)
  let s := s.setRunout 0 fun x => { x with floor := 4, waitingLift := some 4 }
  s.setPassage { s.passage with motion := [finMove 4 (.floorLift 0)] }

theorem test_tenth_law_premises :
    (let s := probe .running (single 0x10090 3)
     s.Sound ∧ s.passage.nextGrant = .passage ∧ s.shadow ⟨.fin, 0⟩ = some 2 ∧ s.GrantsWord ⟨.fin, 0⟩ (single 0x10090 3) ∧
       ∃ t, exec .finWrite s = .next t ∧ (t.passage.response == some ⟨true, []⟩) = true) ∧
    (let s := waiting (finMove 4 .safe) (calm .stopped)
     s.Sound ∧ s.passage.port = none ∧
       ∃ t, exec .motionWriteGrant s = .next t ∧ (t.passage.port == some (finMove 4 .safe)) = true) ∧
    (settling.Sound ∧ settling.passage.port = some (finMove 4 .safe) ∧ settling.brakeFloor 0 ≤ 4) ∧
    overtaken.Sound ∧ overtaken.passage.port = some (finMove 3 (.floorLift 0)) ∧ ¬ overtaken.brakeFloor 0 ≤ 3 :=
  ⟨⟨sound_of_check (by decide +kernel), by decide +kernel, by decide +kernel, grantsWord_of (by decide +kernel),
      next_of_passes (by decide +kernel)⟩,
    ⟨sound_of_check (by decide +kernel), by decide +kernel, next_of_passes (by decide +kernel)⟩,
    ⟨test_settling_is_sound, by decide +kernel, by decide +kernel⟩,
    sound_of_check (by decide +kernel), by decide +kernel, by decide +kernel⟩

theorem holdsRunLoad_of {s : State}
    (h : s.berth.pacer.all (fun p => p.runLoad == s.runLoad && p.stage2 == s.stage2Met) = true) : s.HoldsRunLoad :=
  fun p hp => by
  simpa using (Option.all_eq_true _ _).mp h p hp

theorem holdsStalls_of {s : State}
    (h : (List.range 4).all (fun c => (s.conveyor c).all fun x => x.stalled == s.stallCondition c) = true) : s.HoldsStalls :=
  fun c hc x hx => by
    simpa using (Option.all_eq_true _ _).mp (List.all_eq_true.mp h c (List.mem_range.mpr hc)) x hx

/-- An OPEN onto the OPEN gate of the split, with its head boat's reservation standing and without. -/
def reopening (s : State) : State :=
  let s := { handOn still s with verdict := ⟨flumeShadows 1, none⟩ }
  asking open4 (s.setPassage { s.passage with motion := [] })

theorem test_reopen_premises :
    ∀ s ∈ [reserved .running, busy .running],
      (reopening s).GrantsWord ⟨.release, 4⟩ open4 ∧ (reopening s).TablesLaw ∧ (reopening s).RosterLaw ∧
        (reopening s).HoldsRunLoad ∧ (reopening s).HoldsStalls ∧ (reopening s).shadow ⟨.release, 4⟩ = some 1 ∧
        (reopening s).head 4 = 5 ∧ ∃ t, exec .releaseWrite (reopening s) = .next t := by
  intro s hs
  refine ⟨grantsWord_of ?_, tablesLaw_of_flume ?_ ?_ ?_ ?_, rosterLaw_of_check ?_, holdsRunLoad_of ?_, holdsStalls_of ?_,
    ?_, ?_, next_of ?_⟩ <;> (revert s; decide +kernel)

/-- The performance of a boat's reservation waits in the MOTION class. -/
def awaiting (g b : Nat) (s : State) : State :=
  waiting ⟨⟨.release, g⟩, 0x10000 + 4 * g, 1, .performance { openHeld with word := ⟨.release, g⟩ } (some b), false⟩ s

theorem awaiting_performs (g b : Nat) (s : State) :
    (awaiting g b s).PerformanceWaits b { openHeld with word := ⟨.release, g⟩ } :=
  ⟨[], _, [], rfl, by simp, rfl, rfl⟩

/-- Passages over the boat's own edge and over the other branch, in RUNNING and in TRIPPED, and one that reaches a
run-out's feed segment. -/
theorem test_withdrawal_premises :
    (∀ r ∈ [RideState.running, .tripped], let s := awaiting 4 5 (reserved r)
      s.PerformanceWaits 5 { openHeld with word := ⟨.release, 4⟩ } ∧ s.TablesLaw ∧ s.RosterLaw ∧ s.ringTakes 2 ∧
        s.reservationOf 5 = some ⟨5, 4, 104000⟩ ∧ s.queue 4 = 5 :: [6] ∧
        s.config.edges[4]? = some ⟨4, 0, 1, 2, false, false⟩ ∧ s.config.edges[5]? = some ⟨4, 1, 1, 3, false, false⟩ ∧
        (s.config.segment 4).gated = true ∧
        ¬ s.clock - (s.boat 5).arrival < (s.config.segment 4).minDwell) ∧
    (busy .running).config.touchesRunout 2 0 = true ∧ (busy .running).config.touchesRunout 3 0 = true ∧
    (busy .running).config.edges[1]? = some ⟨1, 2, 1, 0, false, false⟩ := by
  refine ⟨fun r hr => ⟨awaiting_performs 4 5 _, tablesLaw_of_flume ?_ ?_ ?_ ?_, rosterLaw_of_check ?_, ringTakes_of ?_, ?_,
    ?_, ?_, ?_, ?_, ?_⟩, ?_⟩ <;> first | decide +kernel | (revert r; decide +kernel)

/-- Lapses with the performance waiting, over an edge into a run-out, and with a boat whose dwell clock runs behind the
segment that gains room by it. -/
def excused : State :=
  ({ reserved .running with clock := 104000 } : State).setBoat 5 fun r => { r with dwell := .running 90000 }

theorem test_lapse_work_premises :
    (let s := awaiting 4 5 { reserved .running with clock := 104000 }
     s.PerformanceWaits 5 { openHeld with word := ⟨.release, 4⟩ } ∧ s.resetAsserted = false ∧
       s.reservationOf 5 = some ⟨5, 4, 104000⟩ ∧ 104000 ≤ s.clock ∧ s.ringTakes 2) ∧
    (let s := (riding .running (stand 9 2 still)).addReservation ⟨9, 2, 100000⟩
     s.reservationOf 9 = some ⟨9, 2, 100000⟩ ∧ 100000 ≤ s.clock ∧ s.config.runoutSegment 0 = some 3 ∧
       s.config.edgeInto 2 3 = true ∧ (s.runout 0).isSome = true) ∧
    (excused.reservationOf 5 = some ⟨5, 4, 104000⟩ ∧ 5 ∈ excused.queue 4 ∧ 4 < excused.config.segments.length ∧
      (excused.boat 5).dwell = .running 90000 ∧ excused.successorFull 4 = true ∧
      ∃ t, exec (.reservationLapse 5) excused = .next t ∧
        (t.successorOpen 4 && (t.boat 5).dwell == .running 104000) = true) := by
  refine ⟨⟨awaiting_performs 4 5 _, ?_, ?_, ?_, ringTakes_of ?_⟩, ⟨?_, ?_, ?_, ?_, ?_⟩, ?_, ?_, ?_, ?_, ?_, next_of_passes ?_⟩
    <;> decide +kernel

/-- A change that opens the segment ahead of boat 5, and that leaves boat 6, with no running clock, and boat 7 alone. -/
theorem test_dwell_work_premises :
    let s := excused.dropReservations (·.boat == 5)
    excused.gainsRoom s 4 ∧ 5 ∈ s.queue 4 ∧ (s.boat 5).dwell = .running 90000 ∧ 6 ∈ s.queue 4 ∧ (s.boat 6).dwell = .none ∧
      ¬ ∃ g < s.config.segments.length, excused.gainsRoom s g ∧ 7 ∈ s.queue g := by
  unfold State.gainsRoom
  decide +kernel

/-- Entries that an examination judges PASS with and without a reservation, AMEND, HOLD and REFUSE. -/
theorem test_judgement_premises :
    let raise (v : Nat) : HeldEntry := { heldSpeed with value := v }
    let holds (h : HeldEntry) (s : State) := s.setHold ⟨[{ h with reason := .pace }]⟩
    let pass := { pacedOpen with berth := { pacedOpen.berth with pacer := some metPacer } }
    (pass.judge openHeld.word openHeld.value = .pass (some ⟨9, 0, 105000⟩) ∧
        (∃ x ∈ pass.hold.entries, x.word = openHeld.word)) ∧
      (holds heldSpeed (busy .running)).judge ⟨.speed, 0⟩ 600 = .pass none ∧
      (holds (raise 1000) (busy .running)).judge ⟨.speed, 0⟩ 1000 = .amend 800 .speedLimit ∧
      ((holds heldSpeed jammed).judge ⟨.speed, 0⟩ 600 = .hold 600 false .crest ∧
        (examineEntry heldSpeed (holds heldSpeed jammed)).hold ≠ (holds heldSpeed jammed).hold) ∧
      ((holds heldSpeed (faultSegment .early 1 (busy .running))).judge ⟨.speed, 0⟩ 600 = .refuse .segmentFaulted ∧
        (holds heldSpeed (faultSegment .early 1 (busy .running))).ringHasRoom ∧
        (examineEntry heldSpeed (holds heldSpeed (faultSegment .early 1 (busy .running)))).hold ≠
          (holds heldSpeed (faultSegment .early 1 (busy .running))).hold) := by
  refine ⟨⟨?_, ?_⟩, ?_, ?_, ⟨?_, ?_⟩, ?_, hasRoom_of ?_, ?_⟩ <;> decide +kernel

/-- Each change that calls for an examination, one that a hand-on meets, and none. -/
theorem test_examination_premises :
    (∃ g < (busy .running).config.segments.length, (calm .running).load g ≠ (busy .running).load g) ∧
      still.verdict.shadows ≠ (flumeShadows 1) ∧
      (waitingPacer.stage1 = false ∧ metPacer.stage1 = true) ∧
      (stalling false false jammed).stalled 0 ≠ (stalling true false jammed).stalled 0 ∧
      (∃ g < (unitWork (calm .running) (dwellWork (calm .running) (busy .running))).config.segments.length,
        (calm .running).load g ≠ (unitWork (calm .running) (dwellWork (calm .running) (busy .running))).load g) ∧
      examinationDue (calm .running) (unitWork (calm .running) (dwellWork (calm .running) (calm .running))) = false := by
  refine ⟨?_, ?_, ?_, ?_, ?_, ?_⟩ <;> decide +kernel

/-- A recomputation whose floor stands above the shadow, and above the waiting lift or at it. -/
theorem test_recompute_premises :
    let lifted (w : Nat) := (riding .running (stand 9 2 afloat)).setRunout 0 fun x => { x with waitingLift := some w }
    (∀ w ∈ [3, 4], (lifted w).config.runoutSegment 0 = some 3 ∧ (lifted w).floorOf 0 = 4 ∧ (lifted w).brakeFloor 0 ≠ 4 ∧
      (lifted w).runout 0 = some ⟨0, 0, .none, .idle, some w⟩ ∧ (lifted w).shadow ⟨.fin, 0⟩ = some 2 ∧
      (lifted w).ringHasRoom ∧ 8 ∈ (lifted w).queue 3 ∧ 8 ≤ (lifted w).tracker.roster.length ∧ 9 ∉ (lifted w).queue 3) := by
  intro lifted w hw
  refine ⟨?_, ?_, ?_, ?_, ?_, hasRoom_of ?_, ?_, ?_, ?_⟩ <;> (revert w; decide +kernel)

/-- A boat directive that touches a run-out; and a step that keeps the floors, once recomputed, and the next step times. -/
def floorsHeld : State := { recomputeFloor 0 (busy .running) with pending := [.lineLevelChange true] }

theorem test_floor_follows_premises :
    ((busy .stopped).Sound ∧ ∃ t, exec (.addBoat ⟨1, [9, 3]⟩) (busy .stopped) = .next t ∧
      (t.config.runoutSegment 0 == some 3 && (busy .stopped).occupancy 3 != t.occupancy 3) = true) ∧
    floorsHeld.Sound ∧ floorsHeld.HoldsFloors ∧ ∃ t, step floorsHeld = .next t := by
  refine ⟨⟨sound_of_check (by decide +kernel), next_of_passes (by decide +kernel)⟩, sound_of_check (by decide +kernel),
    fun r g x hg hx => ⟨floorsHeld.clock, le_refl _, ?_⟩, next_of (by decide +kernel)⟩
  have check : (indices4.all fun r => ((floorsHeld.runout r).all fun x => x.floor == floorsHeld.floorOf r) &&
      (floorsHeld.config.runoutSegment r).all fun g => (floorsHeld.queue g).all fun b =>
        (floorsHeld.boat b).nextStep == floorsHeld.firstStepAfter b floorsHeld.clock) = true := by decide +kernel
  have hr : r ∈ indices4 := by
    have only : floorsHeld.brake.runouts.all (fun x => x.index == 0) = true := by decide +kernel
    have := List.all_eq_true.mp only x (List.mem_of_find?_eq_some hx)
    have is : x.index = r := by simpa using List.find?_some hx
    rw [is, beq_iff_eq] at this
    subst this
    decide
  have := List.all_eq_true.mp check r hr
  rw [Bool.and_eq_true, Option.all_eq_true, Option.all_eq_true] at this
  exact ⟨by simpa using this.1 x hx, fun b hb => by simpa using List.all_eq_true.mp (this.2 g hg) b hb⟩

/-- Items whose content differs with no request waiting, one of each kind, and one that a whole command changes. -/
theorem test_item_change_premises :
    (still.itemChanged afloat (.roster 5) ∧ still.itemChanged afloat (.segment 4) ∧
      afloat.itemChanged (reserved .stopped) .reservations ∧ (calm .stopped).itemChanged (calm .tripped) .ride ∧
      ((calm .stopped).setLine { still.line with state := .down }).itemChanged (calm .stopped) .line ∧
      still.itemChanged ((calm .stopped).setRunout 0 fun x => { x with feedback := .stage 0 }) .brake ∧
      still.itemChanged (slotTwo .missing 1 still) (.node 2)) ∧
      (afloat.passage.upkeep.any (·.asksFor (.roster 5))) = false ∧
      ∃ t, exec (.addBoat ⟨1, [9, 3]⟩) (busy .stopped) = .next t ∧
        (itemBytes (busy .stopped) (.roster 9) != itemBytes t (.roster 9)) = true := by
  refine ⟨?_, ?_, next_of_passes ?_⟩
  · unfold State.itemChanged
    decide +kernel
  all_goals decide +kernel

/-! ## Points of the review -/

/-- A RESEAT in the millisecond of the boats' arrival starts the profile again (R19, R107). -/
theorem test_reseat_restarts_the_profile :
    nextPasses (exec (.reseat ⟨1, [3, 1, 8]⟩) (busy .tripped)) (fun t => (t.boat 8).nextStep == some 103000) = true := by
  decide +kernel

/-- STOP_RIDE withdraws a performance that holds the memory port (R64, R74). -/
theorem test_stop_withdraws_the_granted_performance :
    nextPasses (exec (.stopRide ⟨1, []⟩) opening) (fun t => t.passage.port.isNone) = true := by
  decide +kernel

/-- A trip that ends the withheld rounds returns a MISSING node (R139, R160). -/
theorem test_abort_returns_missing_nodes :
    nextPasses (exec (.stopNow ⟨7, []⟩) (slotTwo .missing 2 (due (some ⟨1, .withheld, 4⟩) (calm .stopped))))
      (fun t => (t.node 2).state == .active && (t.node 2).misses == 0) = true := by
  decide +kernel

/-- A take asks for both index words before its records (R182). -/
theorem test_take_resets_the_index_words :
    nextPasses (exec (.stopRide ⟨1, []⟩) (imaged (calm .running)))
      (fun t => t.passage.upkeep.take 2 == [.image .producer false, .image .consumer false]) = true := by
  decide +kernel

/-- A line that goes DOWN in the withheld rounds leaves a MISSING node as it stood (R129). -/
theorem test_line_down_keeps_missing_nodes :
    nextPasses (exec .stuckLow
        (let s := slotTwo .missing 2 (due (some ⟨1, .withheld, 4⟩) (calm .stopped))
         s.setLine { s.line with lowSince := some 99980 }))
      (fun t => t.line.state == .down && (t.node 2).state == .missing && (t.node 2).misses == 2 &&
        t.ride.drill.isNone) = true := by
  decide +kernel

/-- A feedback that goes from stage 0 to none asks for the brake image (R119). -/
theorem test_absent_feedback_asks_for_the_brake_image :
    let s := (calm .stopped).setRunout 0 fun x => { x with feedback := .stage 0 }
    itemBytes s .brake = itemBytes (calm .stopped) .brake ∧
      (askChanged s (calm .stopped)).passage.upkeep = [.image .brake false] := by
  decide +kernel

/-- Past the last entry of the reservation list the boat is 0 and the edge FFh (11.1, 11.2). -/
theorem test_reservation_rows :
    ((itemBytes (reserved .running) .reservations).take 16 =
        [5, 4, 0, 0] ++ le4 104000 ++ [0, 0xFF, 0, 0, 0, 0, 0, 0]) ∧
      (itemBytes (calm .running) .reservations).length = 192 := by
  decide +kernel

/-- A held write superseded in its own millisecond by an identical one leaves the list as it was and has its image asked
for, and so has the last-verdict block (R66, R69). -/
theorem test_identical_hold_asks_for_its_images :
    nextPasses (exec .releaseWrite fullBerth) (fun t =>
      nextPasses (exec .releaseWrite (asking open4 (t.setPassage { t.passage with upkeep := [] }))) fun u =>
        u.hold.entries.length == 1 && u.hold.entries == t.hold.entries && u.verdict.last == t.verdict.last &&
          u.passage.upkeep.any (·.asksFor .holdQueue) && u.passage.upkeep.any (·.asksFor .lastVerdict)) = true := by
  decide +kernel

/-- A cause that the set holds, with the count at its limit, changes no byte of the ride block and has it rewritten (R151).
-/
theorem test_saturated_cause_asks_for_the_ride_block :
    let s := (calm .tripped).setRide { (calm .tripped).ride with
      trip := { TripBlock.start .early .segment 0 1 with additional := 65535 } }
    (addCause .early .segment 0 s).ride = s.ride ∧
      (addCause .early .segment 0 s).passage.upkeep.any (·.asksFor .ride) = true := by
  decide +kernel

/-- STORE_READ_TIMEOUT has no effect before 20 ms, and fails check 14 from then on (R184). -/
theorem test_store_timeout :
    nextPasses (exec .storeReadTimeout (reading [])) (fun t => t.loader.phase == .reading) = true ∧
      nextPasses (exec .storeReadTimeout readingLate) (fun t => t.loader.failure == (14, 0)) = true := by
  refine ⟨?_, ?_⟩ <;> decide +kernel

end Sys2Proof.Tests
end

section
/-!
SUPPORT. A single write to a guarded word from its grant to the end of its event: what a shadow reads after a store, what
the supersession of the word's entry leaves, what a PASS stores (R50, R53 to R56). Then the sixth law (R49).
-/

namespace Sys2Proof.Machine

set_option Elab.async false

/-! ## Shadows (R50, R81) -/

theorem modifyAt_eq_modify {α : Type} (f : α → α) (xs : List α) (i : Nat) : modifyAt f xs i = xs.modify i f := by
  induction xs generalizing i with
  | nil => cases i <;> rfl
  | cons x xs ih =>
    cases i with
    | zero => rfl
    | succ i => rw [modifyAt, ih, List.modify_succ_cons]

/-- A store changes the list of its own bank alone. -/
theorem Shadows.bank_put (t : Shadows) (w : WordRef) (v : Nat) (b : Bank) :
    (t.put w v).bank b = if b = w.bank then (t.bank b).modify w.index (fun _ => some v) else t.bank b := by
  obtain ⟨k, i⟩ := w
  cases k <;> cases b <;> simp [Shadows.put, Shadows.bank, modifyAt_eq_modify]

/-- A known shadow takes the value stored. -/
theorem Shadows.get_put_same {t : Shadows} {w : WordRef} {x : Nat} (known : t.get w = some x) (v : Nat) :
    (t.put w v).get w = some v := by
  rw [Shadows.get, List.getD_eq_getElem?_getD] at known ⊢
  rw [Shadows.bank_put, if_pos rfl, List.getElem?_modify_eq]
  cases listed : (t.bank w.bank)[w.index]? with
  | none => simp [listed] at known
  | some y => rfl

/-- A store leaves every other shadow. -/
theorem Shadows.get_put_other (t : Shadows) {w x : WordRef} (ne : x ≠ w) (v : Nat) : (t.put w v).get x = t.get x := by
  rw [Shadows.get, Shadows.get, Shadows.bank_put]
  split
  · next bank =>
    have index : w.index ≠ x.index := fun e => ne (by cases x; cases w; cases bank; cases e; rfl)
    rw [List.getD_eq_getElem?_getD, List.getElem?_modify_ne _ _ index, List.getD_eq_getElem?_getD]
  · rfl

/-- A request that waits for an item waits still while requests are only added. -/
theorem waits_of_prefix {p q : List UpkeepRequest} {i : ImageItem} (h : p <+: q) (waits : p.any (·.asksFor i) = true) :
    q.any (·.asksFor i) = true := by
  obtain ⟨u, mem, asks⟩ := List.any_eq_true.mp waits
  exact List.any_eq_true.mpr ⟨u, h.subset mem, asks⟩

/-! ## The supersession of an entry (R56, R79) -/

/-- The entry of a word ends with HOLD-END SUPERSEDED. -/
theorem supersede_of_held {s : State} {w : WordRef} {h : HeldEntry} (found : s.heldEntry w = some h) :
    supersede w s = endHeld h .superseded none s := by
  rw [supersede, found]

/-- A word without an entry supersedes nothing. -/
theorem supersede_of_none {s : State} {w : WordRef} (absent : s.heldEntry w = none) : supersede w s = s := by
  rw [supersede, absent]

theorem supersededReports_of_held {s : State} {w : WordRef} {h : HeldEntry} (found : s.heldEntry w = some h) :
    s.supersededReports w = [.holdEnd h .superseded none (s.holdEndBoat w)] := by
  rw [State.supersededReports, found]

theorem supersededReports_of_none {s : State} {w : WordRef} (absent : s.heldEntry w = none) :
    s.supersededReports w = [] := by
  rw [State.supersededReports, absent]

theorem heldEntry_word {s : State} {w : WordRef} {h : HeldEntry} (found : s.heldEntry w = some h) : h.word = w := by
  simpa using List.find?_some found

theorem heldEntry_none_iff (s : State) (w : WordRef) :
    s.heldEntry w = none ↔ ∀ h ∈ s.hold.entries, h.word ≠ w := by
  simp [State.heldEntry]

theorem endHeld_entries (h : HeldEntry) (o : HoldOutcome) (r : Option Reason) (s : State) :
    (endHeld h o r s).hold.entries = s.hold.entries.filter (·.word != h.word) := by
  have kept : s.hold = (reportHoldEnd h o r s).hold := reportHoldEnd_keeps h o r s .hold (by decide)
  rw [endHeld, State.removeHeld, setEntries_entries, ← kept]

theorem supersede_settles (w : WordRef) (s : State) : Settles s (supersede w s) := by
  cases found : s.heldEntry w with
  | none => rw [supersede_of_none found]; exact Settles.refl s
  | some h => rw [supersede_of_held found]; exact endHeld_settles _ _ _ _

/-- The word's entry leaves the list, every other one stays. -/
theorem supersede_entries (w : WordRef) (s : State) :
    (supersede w s).hold.entries = s.hold.entries.filter (·.word != w) := by
  cases found : s.heldEntry w with
  | none =>
    rw [supersede_of_none found, List.filter_eq_self.mpr]
    exact fun h mem => bne_iff_ne.mpr ((heldEntry_none_iff s w).mp found h mem)
  | some h => rw [supersede_of_held found, endHeld_entries, heldEntry_word found]

theorem supersede_free (w : WordRef) (s : State) : ∀ h ∈ (supersede w s).hold.entries, h.word ≠ w := by
  rw [supersede_entries]
  exact fun h mem => by simpa using (List.mem_filter.mp mem).2

/-- An entry that is superseded has the hold queue image asked for (R69). -/
theorem supersede_asksFor {w : WordRef} {s : State} (held : ∃ h ∈ s.hold.entries, h.word = w) :
    (supersede w s).passage.upkeep.any (·.asksFor .holdQueue) = true := by
  obtain ⟨e, mem, word⟩ := held
  cases found : s.heldEntry w with
  | none => exact absurd word ((heldEntry_none_iff s w).mp found e mem)
  | some h =>
    have kept : s.hold = (reportHoldEnd h .superseded none s).hold :=
      reportHoldEnd_keeps h .superseded none s .hold (by decide)
    rw [supersede_of_held found]
    refine setEntries_asksFor _ _ fun same => ?_
    rw [← kept, heldEntry_word found] at same
    have stays := List.filter_eq_self.mp same e mem
    exact bne_iff_ne.mp stays word

/-- While the ring takes it, the HOLD-END SUPERSEDED record of an entry waits behind the others. -/
theorem supersede_records {w : WordRef} {s : State} (room : s.ringTakes (s.supersededReports w).length) :
    s.waitingReports ++ s.supersededReports w <+: (supersede w s).waitingReports := by
  cases found : s.heldEntry w with
  | none =>
    rw [supersededReports_of_none found, supersede_of_none found, List.append_nil]
  | some h =>
    have word := heldEntry_word found
    rw [supersededReports_of_held found] at room ⊢
    have called := (callReport_takes (n := 0) room (.holdEnd h .superseded none (s.holdEndBoat w))).2
    rw [supersede_of_held found, ← called, endHeld, reportHoldEnd, word]
    exact waiting_prefix (removeHeld_settles _ w).upkeep

/-! ## Form checks and verdicts (R55 to R63) -/

/-- A full single write in range to a bound word passes the form checks. -/
theorem formCheck_passes {s : State} {w : WordRef} {a : Access} {v : Word} (full : a.full = true) (single : a.beats = 1)
    (bound : s.config.bound w = true) (range : inRange w.bank v.toNat = true) : s.formCheck w a v = none := by
  simp [State.formCheck, full, single, bound, range]

/-- Toward its safe value a word is given PASS, before the ride state or the ride model is asked (R57, R62, R63). -/
theorem judge_towardSafe {s : State} {w : WordRef} {x v : Nat} (shadow : s.shadow w = some x) (directed : w.bank ≠ .route)
    (safe : towardSafe w.bank x v = true) : s.judge w v = .pass none := by
  obtain ⟨bank, i⟩ := w
  cases bank with
  | release =>
    have closed : v = 0 := of_decide_eq_true safe
    simp [State.judge, State.judgeRelease, closed]
  | route => exact absurd rfl directed
  | fin =>
    have raised : x ≤ v := of_decide_eq_true safe
    simp [State.judge, State.judgeFin, shadow, raised]
  | speed =>
    have lowered : v ≤ x := of_decide_eq_true safe
    simp [State.judge, State.judgeSpeed, shadow, lowered]

/-! ## What a PASS stores (R53) -/

/-- The state in which a PASS leaves its word, its reservation and its response, before the change is handed on. -/
def passed (w : WordRef) (v : Nat) (r : Option Reservation) (s : State) : State :=
  (reserve r (storeGuarded w v s)).respondDone []

theorem guardedWrite_pass {w : WordRef} {a : Access} {s : State} {r : Option Reservation}
    (form : (supersede w s).formCheck w a a.value = none)
    (pass : (supersede w s).judge w a.value.toNat = .pass r) :
    guardedWrite w a s = handOn (supersede w s) (passed w a.value.toNat r (supersede w s)) := by
  simp only [guardedWrite, form, takeVerdict, pass, passed]

theorem passed_eq {w : WordRef} {s : State} (bound : s.config.bound w = true) (v : Nat) (r : Option Reservation) :
    passed w v r s = { s with
      memory := s.memory.writeWord (s.config.wordAddr w) (BitVec.ofNat 32 v)
      verdict := { s.verdict with shadows := s.verdict.shadows.put w v }
      tracker := { s.tracker with reservations := s.tracker.reservations ++ r.toList }
      passage := { s.passage with response := some ⟨true, []⟩ } } := by
  have bound' : ∀ m, (s.setMemory m).config.bound w = true := fun _ => bound
  rw [passed, storeGuarded, State.storeShadow, if_pos (bound' _)]
  cases r with
  | none => simp only [Option.toList_none, List.append_nil]; rfl
  | some r => rfl

section
variable {w : WordRef} {s : State} (bound : s.config.bound w = true) (v : Nat) (r : Option Reservation)
include bound

theorem handOn_passed_upkeep : s.passage.upkeep <+: (handOn s (passed w v r s)).passage.upkeep := by
  have same : s.passage.upkeep = (passed w v r s).passage.upkeep := by rw [passed_eq bound]
  exact same ▸ (handOn_settles s _).upkeep

theorem handOn_passed_last : (handOn s (passed w v r s)).verdict.last = s.verdict.last := by
  have same : (passed w v r s).verdict.last = s.verdict.last := by rw [passed_eq bound]
  rw [← (handOn_settles s (passed w v r s)).keeps .verdict (by decide), same]

theorem handOn_passed_reservations :
    s.tracker.reservations ++ r.toList <+: (handOn s (passed w v r s)).tracker.reservations := by
  have made : s.tracker.reservations ++ r.toList = (passed w v r s).tracker.reservations := by rw [passed_eq bound]
  exact made ▸ (handOn_settles s _).reservations

/-- What a PASS stores, handed on, once no entry of the word is left and the access has been granted. -/
theorem handOn_passed_stores {x : Nat} (known : s.shadow w = some x) (free : ∀ h ∈ s.hold.entries, h.word ≠ w)
    (granted : s.passage.access = none) : s.Stores (handOn s (passed w v r s)) w v := by
  have settles := handOn_settles s (passed w v r s)
  have stored := passed_eq bound v r
  constructor
  case ended =>
    exact ⟨settles.response.trans (by rw [stored]), settles.access.trans (by rw [stored]; exact granted)⟩
  case memory => rw [settles.memory, stored]
  case shadow =>
    rw [settles.shadow, stored]
    exact Shadows.get_put_same known v
  case others =>
    intro y ne
    rw [settles.shadow, stored]
    exact Shadows.get_put_other _ ne v
  case segments => rw [settles.segments, stored]
  case held =>
    intro h mem
    have listed := settles.entries.subset (List.mem_map_of_mem mem)
    rw [stored] at listed
    obtain ⟨k, held, same⟩ := List.mem_map.mp listed
    have word : k.lasting.word = h.lasting.word := by rw [same]
    exact fun named => free k held (word.trans named)
  case list => exact fun ⟨h, mem, word⟩ => absurd word (free h mem)
  case records =>
    intro _
    rw [supersededReports_of_none ((heldEntry_none_iff s w).mpr free), List.append_nil]
    exact waiting_prefix (handOn_passed_upkeep bound v r)

end

section
variable {s t : State} {w : WordRef} {v : Nat}

/-- A store after the supersession of the word's entry is a store of the state before. -/
theorem State.Stores.of_supersede (h : (supersede w s).Stores t w v)
    (upkeep : (supersede w s).passage.upkeep <+: t.passage.upkeep) : s.Stores t w v := by
  have sup := supersede_settles w s
  constructor
  case ended => exact h.ended
  case memory => rw [h.memory, sup.memory, sup.config]
  case shadow => exact h.shadow
  case others => exact fun x ne => (h.others x ne).trans (sup.shadow x)
  case segments => exact h.segments.trans sup.segments
  case held => exact h.held
  case list => exact fun held => waits_of_prefix upkeep (supersede_asksFor held)
  case records => exact fun room => (supersede_records room).trans (waiting_prefix upkeep)

theorem State.Stores.of_grantPassage (h : (grantPassage s).Stores t w v) : s.Stores t w v :=
  ⟨h.ended, h.memory, h.shadow, h.others, h.segments, h.held, h.list, h.records⟩

/-- The end of the event leaves what a store has done. -/
theorem State.Stores.finish (h : s.Stores t w v) (s0 : State) : s.Stores (finish s0 t) w v := by
  constructor
  case ended => exact ⟨(finish_response s0 t).trans h.ended.response, (finish_access s0 t).trans h.ended.access⟩
  case memory => rw [finish_memory, h.memory]
  case shadow => rw [finish_shadow, h.shadow]
  case others => exact fun x ne => (finish_shadow s0 t x).trans (h.others x ne)
  case segments => rw [finish_tracker, h.segments]
  case held => rw [finish_hold]; exact h.held
  case list => exact fun held => waits_of_prefix (finish_upkeep s0 t) (h.list held)
  case records => exact fun room => (h.records room).trans (waiting_prefix (finish_upkeep s0 t))

end

/-! ## The grant (R165, R171) -/

/-- The command of a bank's row performs that row. -/
theorem exec_bankRow (b : Bank) (s : State) : exec (bankRow b).command s = performRow (bankRow b) s := by
  cases b <;> rfl

section
variable {s : State} {w : WordRef} {a : Access}

theorem State.GrantsWord.rowOf (g : s.GrantsWord w a) : s.rowOf a = bankRow w.bank := by
  obtain ⟨bank, i⟩ := w
  have names := g.names
  rw [State.rowOf, if_neg g.loaded, g.write, if_neg (by decide), if_neg (by simp [g.single]), names]
  cases bank <;> rfl

/-- A granted write to a guarded word is taken: the grant, the guarded write, the end of the event. -/
theorem State.GrantsWord.exec_eq (g : s.GrantsWord w a) :
    exec (bankRow w.bank).command s = .next (finish s (guardedWrite w a (grantPassage s))) := by
  have effect : (bankRow w.bank).effect a (grantPassage s) = guardedWrite w a (grantPassage s) := by
    have loaded : (grantPassage s).ride.state ≠ .loading := g.loaded
    have names : (grantPassage s).classify a.word = .guarded w := g.names
    cases w.bank <;> simp only [bankRow, AccessRow.effect, if_neg loaded, performGuarded, names]
  rw [exec_bankRow, performRow, g.grants.waits]
  dsimp only
  rw [event_taken g.grants.live (by simp [g.grants.granted, g.rowOf]), effect]

/-- A write that is given PASS is stored, its reservation made, and the last-verdict block left as it was (R53, R54, R66). -/
theorem State.GrantsWord.passes {x : Nat} {r : Option Reservation} (g : s.GrantsWord w a) (full : a.full = true)
    (bound : s.config.bound w = true) (range : inRange w.bank a.value.toNat = true) (known : s.shadow w = some x)
    (pass : (supersede w (grantPassage s)).judge w a.value.toNat = .pass r) :
    ∃ t, exec (bankRow w.bank).command s = .next t ∧ s.Stores t w a.value.toNat ∧ t.verdict.last = s.verdict.last ∧
      s.tracker.reservations ++ r.toList <+: t.tracker.reservations := by
  have sup := supersede_settles w (grantPassage s)
  have bound' : (supersede w (grantPassage s)).config.bound w = true := by rw [sup.config]; exact bound
  have known' : (supersede w (grantPassage s)).shadow w = some x := by rw [sup.shadow]; exact known
  have effect := guardedWrite_pass (formCheck_passes full g.single bound' range) pass
  have stores := handOn_passed_stores bound' a.value.toNat r known' (supersede_free w _) sup.access
  have last : (supersede w (grantPassage s)).verdict = s.verdict := (sup.keeps .verdict (by decide)).symm
  have tracker : s.tracker = (supersede w (grantPassage s)).tracker :=
    supersede_keeps w (grantPassage s) .tracker (by decide)
  refine ⟨_, g.exec_eq, ?_, ?_, ?_⟩
  · rw [effect]
    exact ((stores.of_supersede (handOn_passed_upkeep bound' _ r)).of_grantPassage).finish s
  · rw [effect, finish_verdict, handOn_passed_last bound', last]
  · rw [effect, finish_tracker, tracker]
    exact handOn_passed_reservations bound' _ r

end

/-! ## Ranges and directions (R49) -/

theorem inRange_gate (v : Nat) : inRange .release v = true ↔ v = 0 ∨ v = 1 := by
  simp only [inRange, decide_eq_true_eq]
  omega

/-- Toward its safe value a granted write is stored: no verdict holds or refuses it (R49). -/
theorem State.GrantsWord.stores_towardSafe {s : State} {w : WordRef} {a : Access} {x : Nat} (g : s.GrantsWord w a)
    (full : a.full = true) (bound : s.config.bound w = true) (range : inRange w.bank a.value.toNat = true)
    (known : s.shadow w = some x) (directed : w.bank ≠ .route) (safe : towardSafe w.bank x a.value.toNat = true) :
    ∃ t, exec (bankRow w.bank).command s = .next t ∧ s.Stores t w a.value.toNat ∧ t.verdict.last = s.verdict.last ∧
      s.tracker.reservations <+: t.tracker.reservations := by
  have known' : (supersede w (grantPassage s)).shadow w = some x :=
    ((supersede_settles w (grantPassage s)).shadow w).trans known
  obtain ⟨t, taken, stores, last, made⟩ := g.passes full bound range known (judge_towardSafe known' directed safe)
  exact ⟨t, taken, stores, last, by simpa using made⟩

/-- Settles O31: the kinds of word as they are defined, and the sixth law from the verdict PASS. -/
theorem towardSafeIsNeverHeldOrRefused : Obligations.TowardSafeIsNeverHeldOrRefused := by
  refine ⟨inRange_gate, inRange_gate, fun _ => decide_eq_true_iff, fun _ => decide_eq_true_iff, rfl, rfl, rfl,
    fun _ _ => decide_eq_true_iff, fun _ _ => decide_eq_true_iff, fun _ _ => decide_eq_true_iff, ?_⟩
  intro w a s x grants _ full bound range known directed safe
  exact grants.stores_towardSafe full bound range known directed safe

end Sys2Proof.Machine
end

section
/-!
SUPPORT. What a trip cause leaves (R148 to R151): the abort of a drill, the trip action before it, the added cause.
Then STOP_NOW, which raises its cause whatever directive is in progress (R156).
-/

namespace Sys2Proof.Machine

set_option Elab.async false

/-! ## The return of nodes (R139) -/

/-- What the return of MISSING nodes leaves in place: the line but for its nodes, and the requests that wait. -/
structure Returns (s t : State) : Prop where
  line   : t.line = { s.line with nodes := t.line.nodes }
  upkeep : s.passage.upkeep <+: t.passage.upkeep

theorem Returns.refl (s : State) : Returns s s := ⟨rfl, List.prefix_refl _⟩

theorem Returns.trans {s t u : State} (h : Returns s t) (k : Returns t u) : Returns s u :=
  ⟨by rw [k.line, h.line], h.upkeep.trans k.upkeep⟩

theorem setNode_returns (s : State) (p : Nat) (f : NodeEntry → NodeEntry) : Returns s (s.setNode p f) := by
  cases p with
  | zero => exact Returns.refl s
  | succ n => exact ⟨rfl, List.prefix_refl _⟩

theorem callReport_returns (s : State) (r : Report) : Returns s (s.callReport r) where
  line := by rw [← callReport_keeps s r .line (by decide)]
  upkeep := (callReport_settles s r).upkeep

theorem answer_returns (s : State) (tag : BitVec 16) (kind : Nat) (o : ResultOutcome) (r : Option Reason)
    (detail : List Nat) : Returns s (s.answer tag kind o r detail) := ⟨rfl, List.prefix_refl _⟩

theorem returnNode_returns (p : Nat) (s : State) : Returns s (returnNode p s) := by
  unfold returnNode
  split
  · exact (setNode_returns s p _).trans (callReport_returns _ _)
  · exact Returns.refl s

theorem returnNodes_returns (s : State) : Returns s (returnNodes s) := by
  unfold returnNodes
  generalize s.config.positions = ps
  induction ps generalizing s with
  | nil => exact Returns.refl s
  | cons p ps ih => exact (returnNode_returns p s).trans (ih _)

/-! ## The abort of a sustain drill (R160) -/

/-- The abort ends with its result, whether or not nodes return. -/
theorem abortDrill_directive (d : Drill) (s : State) :
    (abortDrill d s).directive = (s.answer d.tag DirectiveKind.drill.code .aborted none [d.phase.code]).directive := by
  have reported : (reportAbort d s).directive =
      (s.answer d.tag DirectiveKind.drill.code .aborted none [d.phase.code]).directive :=
    (callReport_keeps _ _ .directive (by decide)).symm
  unfold abortDrill
  dsimp only
  split
  · rw [← returnNodes_keeps _ .directive (by decide), reported]
  · exact reported

theorem abortDrill_returns (d : Drill) (s : State) : Returns s (abortDrill d s) := by
  have reported : Returns s (reportAbort d s) := (answer_returns s _ _ _ _ _).trans (callReport_returns _ _)
  unfold abortDrill
  dsimp only
  split
  · exact reported.trans (returnNodes_returns _)
  · exact reported

/-! ## The trip action (R149) -/

/-- The trip action up to the abort of a drill. -/
def tripBeforeAbort (cause : Cause) (k : DetailKind) (detail : Nat) (s : State) : State :=
  let entered := s.enterState .tripped
  let started := entered.setRide { entered.ride with trip := .start cause k detail s.clock }
  (reportState s.ride.state .trip
    ((endDrill (safeWrites (purge started))).callReport (.trip cause k detail false [cause]))).askImage .ride false

section
variable (cause : Cause) (k : DetailKind) (detail : Nat) (s : State)

theorem tripAction_undrilled (h : s.ride.drill = none) :
    tripAction cause k detail s = tripBeforeAbort cause k detail s := by
  simp only [tripAction, h]
  rfl

theorem tripAction_drilled {d : Drill} (h : s.ride.drill = some d) :
    tripAction cause k detail s = abortDrill d (tripBeforeAbort cause k detail s) := by
  simp only [tripAction, h]
  rfl

/-- Before the abort of a drill the action reaches neither the Directive Unit nor the line. -/
theorem tripBeforeAbort_keeps : Keeps [.passage, .hold, .report, .ride] s (tripBeforeAbort cause k detail s) := by
  have h : Keeps [.passage, .hold, .report, .ride] s (s.enterState .tripped) := (enterState_keeps _ _).mono
  exact ((((((h.next (setRide_keeps _ _)).next (purge_keeps _)).next (safeWrites_keeps _)).next
    (endDrill_keeps _)).next (callReport_keeps _ _)).next (reportState_keeps _ _ _)).next (askImage_keeps _ _ _)

theorem tripBeforeAbort_ride : (tripBeforeAbort cause k detail s).ride =
    ⟨.tripped, false, .start cause k detail s.clock, none, s.ride.senseLevel⟩ := by
  unfold tripBeforeAbort
  dsimp only
  rw [← askImage_keeps _ _ _ .ride (by decide), ← reportState_keeps _ _ _ .ride (by decide),
    ← callReport_keeps _ _ .ride (by decide), endDrill, State.setRide_ride,
    ← safeWrites_keeps _ .ride (by decide), ← purge_keeps _ .ride (by decide)]
  rfl

theorem purge_entries : (purge s).hold.entries = [] := setEntries_entries _ _

theorem tripBeforeAbort_entries : (tripBeforeAbort cause k detail s).hold.entries = [] := by
  unfold tripBeforeAbort
  dsimp only
  rw [askImage_hold, ← reportState_keeps _ _ _ .hold (by decide), ← callReport_keeps _ _ .hold (by decide),
    ← endDrill_keeps _ .hold (by decide), ← safeWrites_keeps _ .hold (by decide), purge_entries]

theorem tripBeforeAbort_asksFor : (tripBeforeAbort cause k detail s).passage.upkeep.any (·.asksFor .ride) = true :=
  askImage_asksFor _ _ _

/-! ## An added cause (R151) -/

theorem addCause_ride : (addCause cause k detail s).ride = { s.ride with
    trip := { s.ride.trip with
      causes := if s.ride.trip.causes.contains cause then s.ride.trip.causes else s.ride.trip.causes ++ [cause]
      additional := min (s.ride.trip.additional + 1) 65535 } } := by
  unfold addCause
  dsimp only
  rw [← askImage_keeps _ _ _ .ride (by decide), ← callReport_keeps _ _ .ride (by decide)]
  rfl

theorem addCause_asksFor : (addCause cause k detail s).passage.upkeep.any (·.asksFor .ride) = true :=
  askImage_asksFor _ _ _

/-! ## A cause raised (R148) -/

theorem raiseCause_takesAction (h : s.ride.state = .stopped ∨ s.ride.state = .running) :
    raiseCause cause k detail s = tripAction cause k detail s := by
  rcases h with h | h <;> simp only [raiseCause, h]

theorem raiseCause_joins (h : s.ride.state = .tripped) :
    raiseCause cause k detail s = addCause cause k detail s := by
  simp only [raiseCause, h]

theorem raiseCause_idle (h : s.ride.state = .loading ∨ ∃ r, s.ride.state = .offline r) :
    raiseCause cause k detail s = s := by
  obtain h | ⟨r, h⟩ := h <;> simp only [raiseCause, h]

end

section
variable {s t u : State} {cause : Cause} {k : DetailKind} {detail : Nat}

/-- A cause taken stays taken while the ride and the hold queue stand and requests are only added. -/
theorem State.Raised.next (h : s.Raised t cause k detail) (ride : u.ride = t.ride) (hold : u.hold = t.hold)
    (upkeep : t.passage.upkeep <+: u.passage.upkeep) : s.Raised u cause k detail where
  starts live := by rw [ride, hold]; exact h.starts live
  joins live := by rw [ride]; exact h.joins live
  shown live := waits_of_prefix upkeep (h.shown live)
  idle rest := by rw [ride]; exact h.idle rest

/-- In STOPPED and RUNNING the cause starts a trip block of its own. -/
theorem tripBeforeAbort_raised (live : s.ride.state = .stopped ∨ s.ride.state = .running) :
    s.Raised (tripBeforeAbort cause k detail s) cause k detail where
  starts _ := by
    rw [tripBeforeAbort_ride, tripBeforeAbort_entries]
    exact ⟨rfl, rfl, rfl, rfl, rfl⟩
  joins h := by simp [h] at live
  shown _ := tripBeforeAbort_asksFor cause k detail s
  idle rest := by
    obtain h | ⟨r, h⟩ := rest <;> simp [h] at live

theorem tripAction_raised (live : s.ride.state = .stopped ∨ s.ride.state = .running) :
    s.Raised (tripAction cause k detail s) cause k detail := by
  cases drill : s.ride.drill with
  | none =>
    rw [tripAction_undrilled cause k detail s drill]
    exact tripBeforeAbort_raised live
  | some d =>
    rw [tripAction_drilled cause k detail s drill]
    have keeps := abortDrill_keeps d (tripBeforeAbort cause k detail s)
    exact (tripBeforeAbort_raised live).next (keeps .ride (by decide)).symm (keeps .hold (by decide)).symm
      (abortDrill_returns d _).upkeep

/-- In TRIPPED the cause joins the cause set. -/
theorem addCause_raised (h : s.ride.state = .tripped) : s.Raised (addCause cause k detail s) cause k detail where
  starts live := by simp [h] at live
  joins _ := by
    rw [addCause_ride]
    refine ⟨h, rfl, ?_, ?_, rfl, rfl⟩
    · dsimp only
      split
      · next listed => exact List.contains_iff_mem.mp listed
      · exact List.mem_append_right _ (List.mem_singleton_self cause)
    · intro c listed
      dsimp only
      split
      · exact listed
      · exact List.mem_append_left _ listed
  shown _ := addCause_asksFor cause k detail s
  idle rest := by
    obtain r | ⟨x, r⟩ := rest <;> simp [h] at r

/-- In LOADING and OFFLINE there is nothing that a cause must leave. -/
theorem idle_raised (rest : s.ride.state = .loading ∨ ∃ r, s.ride.state = .offline r) : s.Raised s cause k detail where
  starts live := by obtain h | ⟨r, h⟩ := rest <;> simp [h] at live
  joins live := by obtain h | ⟨r, h⟩ := rest <;> simp [h] at live
  shown live := by obtain h | ⟨r, h⟩ := rest <;> simp [h] at live
  idle _ := rfl

theorem raiseCause_raised (cause : Cause) (k : DetailKind) (detail : Nat) (s : State) :
    s.Raised (raiseCause cause k detail s) cause k detail := by
  cases state : s.ride.state with
  | stopped => rw [raiseCause_takesAction _ _ _ _ (.inl state)]; exact tripAction_raised (.inl state)
  | running => rw [raiseCause_takesAction _ _ _ _ (.inr state)]; exact tripAction_raised (.inr state)
  | tripped => rw [raiseCause_joins _ _ _ _ state]; exact addCause_raised state
  | loading => rw [raiseCause_idle _ _ _ _ (.inl state)]; exact idle_raised (.inl state)
  | offline r => rw [raiseCause_idle _ _ _ _ (.inr ⟨r, state⟩)]; exact idle_raised (.inr ⟨r, state⟩)

end

section
variable (cause : Cause) (k : DetailKind) (detail : Nat) (s : State)

/-- A cause that aborts no drill reaches neither the Directive Unit nor the line. -/
theorem raiseCause_keeps_undrilled (h : s.ride.state = .tripped ∨ s.ride.drill = none) :
    Keeps [.passage, .hold, .report, .ride] s (raiseCause cause k detail s) := by
  cases state : s.ride.state with
  | stopped | running =>
    have drill : s.ride.drill = none := by simpa [state] using h
    rw [raiseCause_takesAction _ _ _ _ (by simp [state]), tripAction_undrilled _ _ _ _ drill]
    exact tripBeforeAbort_keeps cause k detail s
  | tripped =>
    rw [raiseCause_joins _ _ _ _ state]
    exact (addCause_keeps cause k detail s).mono
  | loading =>
    rw [raiseCause_idle _ _ _ _ (.inl state)]
    exact Keeps.refl _ s
  | offline r =>
    rw [raiseCause_idle _ _ _ _ (.inr ⟨r, state⟩)]
    exact Keeps.refl _ s

/-- In STOPPED and RUNNING a cause aborts the sustain drill in progress. -/
theorem raiseCause_drilled {d : Drill} (live : s.ride.state = .stopped ∨ s.ride.state = .running)
    (drill : s.ride.drill = some d) :
    raiseCause cause k detail s = abortDrill d (tripBeforeAbort cause k detail s) := by
  rw [raiseCause_takesAction _ _ _ _ live, tripAction_drilled _ _ _ _ drill]

end

/-! ## STOP_NOW (R156) -/

section
variable {s : State}

/-- The directive in progress and the line but for its node table stand, whether or not a drill is aborted. -/
theorem raiseCause_inProgress (cause : Cause) (k : DetailKind) (detail : Nat)
    (halts : s.ride.state = .stopped ∨ s.ride.state = .running ∨ s.ride.state = .tripped) :
    (raiseCause cause k detail s).directive.argument = s.directive.argument ∧
      (raiseCause cause k detail s).directive.long = s.directive.long ∧
      (raiseCause cause k detail s).line = { s.line with nodes := (raiseCause cause k detail s).line.nodes } := by
  by_cases undrilled : s.ride.state = .tripped ∨ s.ride.drill = none
  · have keeps := raiseCause_keeps_undrilled cause k detail s undrilled
    rw [← keeps .directive (by decide), ← keeps .line (by decide)]
    exact ⟨rfl, rfl, rfl⟩
  · obtain ⟨untripped, some_drill⟩ := not_or.mp undrilled
    obtain ⟨d, drill⟩ := Option.ne_none_iff_exists'.mp some_drill
    have live : s.ride.state = .stopped ∨ s.ride.state = .running := by simpa [untripped] using halts
    have keeps := tripBeforeAbort_keeps cause k detail s
    have line := (abortDrill_returns d (tripBeforeAbort cause k detail s)).line
    rw [← keeps .line (by decide)] at line
    rw [raiseCause_drilled _ _ _ _ live drill]
    refine ⟨?_, ?_, line⟩ <;> rw [abortDrill_directive, keeps .directive (by decide)] <;> rfl

/-- The result of the aborted drill counts as one (R160, R177). -/
theorem raiseCause_aborted_resultCount {cause : Cause} {k : DetailKind} {detail : Nat} {d : Drill}
    (live : s.ride.state = .stopped ∨ s.ride.state = .running) (drill : s.ride.drill = some d) :
    (raiseCause cause k detail s).directive.resultCount = (s.directive.resultCount + 1) % 65536 := by
  rw [raiseCause_drilled _ _ _ _ live drill, abortDrill_directive,
    tripBeforeAbort_keeps cause k detail s .directive (by decide)]
  rfl

/-- Nothing makes the Directive Unit busy for STOP_NOW (R175). -/
theorem takes_stopNow (live : s.resetAsserted = false) (loaded : s.ride.state ≠ .loading) : s.Takes .stopNow :=
  ⟨live, loaded, rfl⟩

/-- STOP_NOW with an argument count that the trigger word can carry is dispatched. -/
theorem exec_stopNow (tag : BitVec 16) (args : List Word) (takes : s.Takes .stopNow) (count : args.length ≤ 15) :
    exec (.stopNow ⟨tag, args⟩) s = .next (finish s (stopNow ⟨tag, .stopNow⟩ args s)) :=
  execRequest_takes takes (decide_eq_true count)

theorem stopNow_invalid {q : Asked} {args : List Word} (given : args ≠ []) : stopNow q args s = q.invalid s := by
  rw [stopNow, if_pos given]

theorem haltable_iff : s.haltable = true ↔
    s.ride.state = .stopped ∨ s.ride.state = .running ∨ s.ride.state = .tripped := by
  simp [State.haltable, State.running, State.atRest, or_left_comm]

theorem stopNow_refused {q : Asked} (rest : ¬ s.haltable = true) : stopNow q [] s = q.refuse .wrongState [] s := by
  simp [stopNow, rest]

theorem stopNow_halts {q : Asked} (halts : s.haltable = true) :
    stopNow q [] s = q.done [] (raiseCause .haltRequest .none 0 s) := by
  simp [stopNow, halts]

/-- STOP_NOW in STOPPED, RUNNING or TRIPPED: its cause, its DONE, the end of the event. -/
theorem exec_stopNow_halts (tag : BitVec 16) (live : s.resetAsserted = false)
    (halts : s.ride.state = .stopped ∨ s.ride.state = .running ∨ s.ride.state = .tripped) :
    exec (.stopNow ⟨tag, []⟩) s =
      .next (finish s ((⟨tag, .stopNow⟩ : Asked).done [] (raiseCause .haltRequest .none 0 s))) := by
  have loaded : s.ride.state ≠ .loading := fun loading => by simp [loading] at halts
  rw [exec_stopNow tag [] (takes_stopNow live loaded) (Nat.zero_le 15), stopNow_halts (haltable_iff.mpr halts)]

/-- STOP_NOW in OFFLINE: its refusal, the end of the event. -/
theorem exec_stopNow_offline (tag : BitVec 16) (live : s.resetAsserted = false) {r : OfflineReason}
    (offline : s.ride.state = .offline r) : exec (.stopNow ⟨tag, []⟩) s =
      .next (finish s ((⟨tag, .stopNow⟩ : Asked).refuse .wrongState [] s)) := by
  have rest : ¬ s.haltable = true := by simp [haltable_iff, offline]
  rw [exec_stopNow tag [] (takes_stopNow live (by simp [offline])) (Nat.zero_le 15), stopNow_refused rest]

/-- What an answer and the end of its event leave of a cause that has been taken. -/
theorem State.Raised.answered {t : State} {cause : Cause} {k : DetailKind} {detail : Nat}
    (h : s.Raised t cause k detail) (q : Asked) : s.Raised (finish s (q.done [] t)) cause k detail :=
  h.next (finish_ride _ _) (finish_hold _ _) (finish_upkeep s (q.done [] t))

/-- With arguments STOP_NOW is INVALID. -/
theorem stopNow_invalidCount : InvalidCount .stopNow .stopNow (· = 0) := by
  intro s tag args takes carried given
  have some_args : args ≠ [] := fun none_given => given (by rw [none_given]; rfl)
  refine ⟨_, exec_stopNow tag args takes carried, ?_, ?_⟩ <;> rw [stopNow_invalid some_args]
  · exact answer_after _ _ _ _ _ (Keeps.refl _ s) (List.Subset.refl _)
  · exact answer_answers _ _ _ _ _ _ _ rfl

/-- Settles O57: what the cause leaves with and without a sustain drill to abort, then the refusal in OFFLINE. -/
theorem stopNowTripsWhateverIsInProgress : Obligations.StopNowTripsWhateverIsInProgress := by
  refine ⟨stopNow_invalidCount, fun s tag live => ⟨fun halts => ?_, fun r offline => ?_⟩⟩
  · obtain ⟨argument, long, line⟩ := raiseCause_inProgress .haltRequest .none 0 halts
    have undrilled := raiseCause_keeps_undrilled .haltRequest .none 0 s
    refine ⟨_, exec_stopNow_halts tag live halts, (raiseCause_raised _ _ _ s).answered _, ?_⟩
    rw [finish_directive, finish_line]
    refine ⟨argument, long, line, ?_, ?_, ?_⟩
    · exact fun calm => (undrilled calm .line (by decide)).symm
    · exact fun calm => answer_answers _ _ _ _ _ _ _ (undrilled calm .directive (by decide)).symm
    · intro d untripped drill
      have running : s.ride.state = .stopped ∨ s.ride.state = .running := by simpa [untripped] using halts
      rw [← raiseCause_aborted_resultCount running drill]
      exact ⟨rfl, .inl rfl⟩
  · refine ⟨_, exec_stopNow_offline tag live offline, ?_, ?_⟩
    · exact answer_after _ _ _ _ _ (Keeps.refl _ s) (List.Subset.refl _)
    · exact answer_answers _ _ _ _ _ _ _ rfl

end

end Sys2Proof.Machine
end
